-- ==== Sys2Proof/Word.lean ====
section
/-! DEFINITION. The machine's words: the byte, the 16-, 32- and 64-bit quantities of the descriptor-ring core.
The spec numbers bits from 0 at the least significant bit and every value is unsigned unless a rule says otherwise
(00_scope.md R11). -/

namespace Sys2Proof

/-- One byte of host memory (20_memory.md R71). -/
abbrev Byte := BitVec 8

/-- A 16-bit quantity: a ring index, a doorbell value, a VLAN tag, a segment length (10_state.md R26, R41). -/
abbrev Half := BitVec 16

/-- A 32-bit quantity: an operation word, a command word, a status word, the completion counter (10_state.md R26, R44). -/
abbrev Word := BitVec 32

/-- A device-visible physical address of host memory, 64 bits (20_memory.md R71). -/
abbrev Addr := BitVec 64

end Sys2Proof
end

