-- ==== Sys2Proof/Syntax.lean ====
section
/-! DEFINITION. The operations of the core, one constructor per row of spec/opcode_table.json (30_encoding.md R130), and the
plain data an operation takes out of band: a frame (10_state.md R51) and the link parameters (10_state.md R38). -/

namespace Sys2Proof

/-- The 21 operations of 30_encoding.md R130. Only the number operands of the operation word stand here; a frame or link
operand accompanies the word out of band (R130) and is found in the machine's state. -/
inductive Instr where
  | ringSetup
  | ringTeardown
  | txClear
  | rxReset
  | txqPlain
  | txqTso4
  | txqTso6
  | txPull
  | txReclaim
  | rxDrain (budget : BitVec 24)
  | poolRefill
  | irqDispatch
  | pollService (budget : BitVec 24)
  | pollMode (on : Bool)
  | wdtTick
  | linkUp
  | linkDown
  | devReset
  | devEnable
  | devDisable
  | mediumSelect (medium : BitVec 5)
  deriving DecidableEq, Repr, Inhabited

/-- The mnemonic of R130, which is also how a line of the textual syntax of R133 begins. -/
def Instr.mnemonic : Instr → String
  | .ringSetup => "RING.SETUP"
  | .ringTeardown => "RING.TEARDOWN"
  | .txClear => "TX.CLEAR"
  | .rxReset => "RX.RESET"
  | .txqPlain => "TXQ.PLAIN"
  | .txqTso4 => "TXQ.TSO4"
  | .txqTso6 => "TXQ.TSO6"
  | .txPull => "TX.PULL"
  | .txReclaim => "TX.RECLAIM"
  | .rxDrain _ => "RX.DRAIN"
  | .poolRefill => "POOL.REFILL"
  | .irqDispatch => "IRQ.DISPATCH"
  | .pollService _ => "POLL.SERVICE"
  | .pollMode _ => "POLL.MODE"
  | .wdtTick => "WDT.TICK"
  | .linkUp => "LINK.UP"
  | .linkDown => "LINK.DOWN"
  | .devReset => "DEV.RESET"
  | .devEnable => "DEV.ENABLE"
  | .devDisable => "DEV.DISABLE"
  | .mediumSelect _ => "MEDIUM.SELECT"

/-- Link speed (10_state.md R38). -/
inductive Speed where
  | unknown | s10 | s100 | s1000
  deriving DecidableEq, Repr, Inhabited

/-- Link duplex (10_state.md R38). -/
inductive Duplex where
  | unknown | half | full
  deriving DecidableEq, Repr, Inhabited

/-- The link record of 10_state.md R38, also the operand of `LINK.UP` and an answer of `HwReadLink`. -/
structure Link where
  speed : Speed
  duplex : Duplex
  /-- bit 0 receive pause, bit 1 transmit pause -/
  flowControl : BitVec 2
  eee : Bool
  deriving DecidableEq, Repr, Inhabited

/-- `(unknown, unknown, 0, 0)`, the link state of a machine with no link (60_exceptions.md R258). -/
def Link.down : Link := { speed := .unknown, duplex := .unknown, flowControl := 0#2, eee := false }

/-- Requested segmentation offload, `f.tsoMode` (30_encoding.md R136: NONE = 0, TSO4 = 1, TSO6 = 2). -/
inductive TsoMode where
  | none | tso4 | tso6
  deriving DecidableEq, Repr, Inhabited

/-- One physical segment of an outbound frame (20_memory.md R87). -/
structure Seg where
  addr : Addr
  len : Half
  deriving DecidableEq, Repr, Inhabited

/-- An outbound frame (10_state.md R51) as the `frame` directive of 30_encoding.md R133 gives it: the offload requests and
the answer `SgMap` will give for it (`none` is `Fail`). Its bytes are the bytes of host memory at its segments
(41_transmit.md R166). -/
structure Frame where
  id : Nat
  tsoMode : TsoMode
  mss : Half
  csumReq : BitVec 5
  vlan : Option Half
  segs : Option (List Seg)
  deriving DecidableEq, Repr, Inhabited

end Sys2Proof
end

