-- ==== Sys2Proof/Config.lean ====
section
/-! DEFINITION. What an implementation fixes: the configuration record `CFG` of 00_scope.md R9 with its `LAYOUT` and
`REGMAP`, the defaults the spec gives for it, and the free answers of the environment (00_scope.md R15).

A configuration is a value of `Cfg`. The machine carries it in its state as an argument no operation writes (log entry 1),
so every statement about all states is a statement about all configurations. -/

namespace Sys2Proof

/-- A bit field of a descriptor word: its lowest bit and its width. -/
structure Field where
  lo : Nat
  width : Nat
  deriving DecidableEq, Repr, Inhabited

/-- `LAYOUT` (00_scope.md R9; 92_eei_decisions.md D6, D7, D8): the sizes of the three descriptors and the byte offsets of their
fields (30_encoding.md R100, R101, R109, R110), the bit positions inside the transmit command word (R102) and inside the words
of a completion descriptor (R111 to R113). The packet length of a context descriptor stands in the low half of the address
field (R101). -/
structure Layout where
  tpdSize : Nat
  tpdLen : Nat
  tpdVlan : Nat
  tpdCmd : Nat
  tpdAddr : Nat
  rfdSize : Nat
  rfdAddr : Nat
  rrdSize : Nat
  rrdW0 : Nat
  rrdW1 : Nat
  rrdW2 : Nat
  rrdW3 : Nat
  l4off : Field
  ipXsum : Nat
  tcpXsum : Nat
  udpXsum : Nat
  lsoEn : Nat
  lsoV2 : Nat
  insVltag : Nat
  ipv4 : Nat
  mss : Field
  eop : Nat
  nor : Field
  si : Field
  vltag : Field
  pid : Field
  pktlen : Field
  errL4 : Nat
  errIpv4 : Nat
  vltagged : Nat
  errRes : Nat
  errFcs : Nat
  errFae : Nat
  errTrunc : Nat
  errRunt : Nat
  errIcmp : Nat
  errFifoFull : Nat
  errLen : Nat
  updated : Nat
  deriving DecidableEq, Repr, Inhabited

/-- The default sizes and offsets of R100, R101, R109 and R110, the default positions of R102 and R111 to R113. -/
def Layout.default : Layout where
  tpdSize := 16
  tpdLen := 0
  tpdVlan := 2
  tpdCmd := 4
  tpdAddr := 8
  rfdSize := 8
  rfdAddr := 0
  rrdSize := 16
  rrdW0 := 0
  rrdW1 := 4
  rrdW2 := 8
  rrdW3 := 12
  l4off := { lo := 0, width := 8 }
  ipXsum := 9
  tcpXsum := 10
  udpXsum := 11
  lsoEn := 12
  lsoV2 := 13
  insVltag := 15
  ipv4 := 16
  mss := { lo := 18, width := 13 }
  eop := 31
  nor := { lo := 16, width := 4 }
  si := { lo := 20, width := 12 }
  vltag := { lo := 0, width := 16 }
  pid := { lo := 16, width := 8 }
  pktlen := { lo := 0, width := 14 }
  errL4 := 14
  errIpv4 := 15
  vltagged := 16
  errRes := 20
  errFcs := 21
  errFae := 22
  errTrunc := 23
  errRunt := 24
  errIcmp := 25
  errFifoFull := 29
  errLen := 30
  updated := 31

/-- Byte offset and width in bits of one device register (30_encoding.md R119). -/
structure RegInfo where
  offset : Nat
  width : Nat
  deriving DecidableEq, Repr, Inhabited

/-- `REGMAP` (00_scope.md R9): where the five device registers of 10_state.md R40 stand. -/
structure RegMap where
  rfdPidx : RegInfo
  tpdPidx : RegInfo
  tpdCidx : RegInfo
  isr : RegInfo
  imr : RegInfo
  deriving DecidableEq, Repr, Inhabited

/-- The default `REGMAP` of R119. -/
def RegMap.default : RegMap where
  rfdPidx := { offset := 0x15E0, width := 16 }
  tpdPidx := { offset := 0x15F0, width := 16 }
  tpdCidx := { offset := 0x15F4, width := 16 }
  isr := { offset := 0x1600, width := 32 }
  imr := { offset := 0x1604, width := 32 }

/-- The bit classes of `ISR` and `IMR` (30_encoding.md R120). -/
structure IsrBits where
  dis : Word
  fatal : Word
  alert : Word
  rx : Word
  tx : Word
  link : Word
  deriving DecidableEq, Repr, Inhabited

/-- The default masks of R120. -/
def IsrBits.default : IsrBits where
  dis := 0x80000000#32
  fatal := 0x04000600#32
  alert := 0x00000118#32
  rx := 0x00010000#32
  tx := 0x00008000#32
  link := 0x00001000#32

/-- `TX_SCHED` (00_scope.md R9). -/
inductive TxSched where
  | push | pull
  deriving DecidableEq, Repr, Inhabited

/-- `SPARE_MODE` (00_scope.md R9, 43_buffer_pool.md R223). -/
inductive SpareMode where
  | copyIntoSpare | swapInSpare
  deriving DecidableEq, Repr, Inhabited

/-- One row of `POLL_PARAMS(speed)`; no rule of the spec depends on it (60_exceptions.md R255). -/
structure PollParams where
  interval : Nat
  packets : Nat
  bytes : Nat
  deriving DecidableEq, Repr, Inhabited

/-- `CFG`, the configuration record of 00_scope.md R9. -/
structure Cfg where
  nTx : Nat
  nRrd : Nat
  nRfd : Nat
  maxSegs : Nat
  txSafetyMargin : Nat
  pullReserve : Nat
  txSched : TxSched
  jumboSupport : Bool
  rxBufSize : Nat
  crcLen : Nat
  minL4OffV4 : Nat
  minL4OffV6 : Nat
  vlanSwap : Bool
  spareCap : Nat
  spareLowWater : Nat
  spareMode : SpareMode
  rxDropMask : Word
  wdtInterval : Nat
  wdtStallThreshold : Nat
  bufAlign : Nat
  ringAlign : Nat
  regmap : RegMap
  layout : Layout
  isr : IsrBits
  pollParams10 : PollParams
  pollParams100 : PollParams
  pollParams1000 : PollParams
  deriving DecidableEq, Repr, Inhabited

/-- The defaults of 00_scope.md R9 and 30_encoding.md, the open parameters fixed as in `CFG_TEST` of 95_test_vectors.md
(DESIGN CHOICE, log entry 2). -/
def Cfg.default : Cfg where
  nTx := 256
  nRrd := 16
  nRfd := 16
  maxSegs := 40
  txSafetyMargin := 4
  pullReserve := 43
  txSched := .push
  jumboSupport := true
  rxBufSize := 2048
  crcLen := 4
  minL4OffV4 := 34
  minL4OffV6 := 54
  vlanSwap := true
  spareCap := 4
  spareLowWater := 2
  spareMode := .copyIntoSpare
  rxDropMask := 0x63F0C000#32
  wdtInterval := 1
  wdtStallThreshold := 5
  bufAlign := 8
  ringAlign := 8
  regmap := RegMap.default
  layout := Layout.default
  isr := IsrBits.default
  pollParams10 := { interval := 0, packets := 0, bytes := 0 }
  pollParams100 := { interval := 0, packets := 0, bytes := 0 }
  pollParams1000 := { interval := 0, packets := 0, bytes := 0 }

/-- The device registers the core touches and the indices the MAC keeps (10_state.md R40, R56). `TPD_CIDX` is the core's
view of `M.txCons` and has no storage of its own. -/
structure DeviceRegs where
  /-- `M.txCons`, read by the core as `TPD_CIDX` (R42, R56) -/
  txCons : Half
  /-- `M.rfdCons` (R56) -/
  rfdCons : Half
  /-- `M.rrdProd` (R56) -/
  rrdProd : Half
  /-- `TPD_PIDX` (R41) -/
  tpdPidx : Half
  /-- `RFD_PIDX` (R43) -/
  rfdPidx : Half
  /-- `ISR` (R44) -/
  isr : Word
  /-- `IMR` (R45) -/
  imr : Word
  deriving DecidableEq, Repr, Inhabited

/-- What `HwMacReset` leaves: everything 0 (10_state.md R54, R56; 70_reset_and_hazards.md R280). -/
def DeviceRegs.zero : DeviceRegs :=
  { txCons := 0#16, rfdCons := 0#16, rrdProd := 0#16, tpdPidx := 0#16, rfdPidx := 0#16, isr := 0#32, imr := 0#32 }

/-- The answer of a hardware call (60_exceptions.md R246). A timed-out MAC reset leaves the device registers at values the
spec does not state, so the answer carries them (log entry 9). -/
inductive HwAnswer where
  | ok
  | timeout (after : DeviceRegs)
  deriving DecidableEq, Repr, Inhabited

/-- A buffer the allocator gives: where it stands, how much room it has beyond the size asked for (10_state.md R50: a capacity
of at least that size), and what its first bytes hold, for the contents of a fresh buffer are any value (R54;
93_implementation_defined.md U18). Bytes of it that `fill` does not reach hold what stood in that memory before. -/
structure BufAnswer where
  phys : Addr
  extra : Nat
  fill : List Byte
  deriving DecidableEq, Repr, Inhabited

/-- The answer the allocator gives to the `n`-th unscripted `BufAlloc`: a buffer, or `none` (00_scope.md R15).
A free value: nothing constrains it. -/
opaque Config.allocAnswer : Nat → Option BufAnswer

/-- The answer to the `n`-th unscripted `DmaAlloc` (00_scope.md R15). A free value. -/
opaque Config.dmaAnswer : Nat → Option Addr

/-- The answer to the `n`-th unscripted hardware call (60_exceptions.md R246). A free value. -/
opaque Config.hwAnswer : Nat → HwAnswer

/-- The answer to the `n`-th unscripted `HwReadLink`: `none` is link down (60_exceptions.md R256). A free value. -/
opaque Config.phyAnswer : Nat → Option Link

/-- The `n`-th byte that a TSO header fix-up leaves in memory that is not the frame's own (20_memory.md R93,
R95): the spec states no result there. A free value (DESIGN CHOICE, log entry 23). -/
opaque Config.headerByte : Nat → Byte

end Sys2Proof
end

