-- ==== Sys2Proof/WellFormed.lean ====
section
/-! DEFINITION. What is legal: a medium code, a link record, an operation, a configuration. Each check is a Bool. -/

namespace Sys2Proof

/-- A medium code is legal unless it is 1000 Mb half duplex (30_encoding.md R131, R132: `imm[1:0]` speed, `imm[2]` duplex). -/
def mediumLegal (m : BitVec 5) : Bool :=
  !(m.extractLsb' 0 2 == 3#2 && !m.getLsbD 2)

/-- A link record that names a medium: speed and duplex known, and not half-duplex gigabit
(93_implementation_defined.md U8). -/
def Link.valid (p : Link) : Bool :=
  p.speed != .unknown && p.duplex != .unknown && !(p.speed == .s1000 && p.duplex == .half)

/-- A well-formed operation: every operand the type admits, but for the one medium R132 calls illegal. -/
def Instr.wf : Instr → Bool
  | .mediumSelect m => mediumLegal m
  | _ => true

/-- A positive power of two (00_scope.md R9). -/
def isPow2 (n : Nat) : Bool := n != 0 && n &&& (n - 1) == 0

/-- `REGMAP` is usable: each register has the width the core accesses it with (20_memory.md R81), stands at a multiple of
that width (R80), and no two registers share an offset. -/
def RegMap.valid (m : RegMap) : Bool :=
  m.rfdPidx.width == 16 && m.tpdPidx.width == 16 && m.tpdCidx.width == 16 && m.isr.width == 32 && m.imr.width == 32 &&
  m.rfdPidx.offset % 2 == 0 && m.tpdPidx.offset % 2 == 0 && m.tpdCidx.offset % 2 == 0 &&
  m.isr.offset % 4 == 0 && m.imr.offset % 4 == 0 &&
  decide ([m.rfdPidx.offset, m.tpdPidx.offset, m.tpdCidx.offset, m.isr.offset, m.imr.offset].Nodup)

/-- The ring lengths are powers of two within their bounds (70_reset_and_hazards.md R286). -/
def Cfg.ringsValid (c : Cfg) : Bool :=
  isPow2 c.nTx && isPow2 c.nRrd && isPow2 c.nRfd &&
  decide (2 ≤ c.nTx) && decide (c.nTx ≤ 65536) && decide (c.nRrd ≤ 65536) && decide (c.nRfd ≤ 4096) &&
  decide ((if c.jumboSupport then 16 else 2) ≤ c.nRfd)

/-- The transmit room constraints (R286, 00_scope.md R9). -/
def Cfg.roomValid (c : Cfg) : Bool :=
  decide (1 ≤ c.maxSegs) && decide (3 ≤ c.txSafetyMargin) && decide (c.maxSegs + 2 ≤ c.pullReserve) &&
  (match c.txSched with
   | .push => decide (c.maxSegs + 1 + c.txSafetyMargin ≤ c.nTx / 4)
   | .pull => decide (c.pullReserve ≤ c.nTx / 4))

/-- The buffer, pool, watchdog and alignment constraints (R286, 00_scope.md R9). That `BUF_ALIGN` is positive is the model's
choice: R286, R9 and 92_eei_decisions.md D25 set no bound on it, and no address is aligned to 0 (DESIGN CHOICE, log entry 21). -/
def Cfg.poolValid (c : Cfg) : Bool :=
  decide (0 < c.rxBufSize) && decide (c.spareLowWater ≤ c.spareCap) && decide (1 ≤ c.wdtStallThreshold) &&
  decide (8 ≤ c.ringAlign) && isPow2 c.ringAlign && decide (0 < c.bufAlign)

/-! ### `LAYOUT` (30_encoding.md R100 to R113, 92_eei_decisions.md D6 to D8)

No rule says which values of `LAYOUT` are usable; the checks below are the model's choice (DESIGN CHOICE, log entry 3). The
defaults of the spec meet them. -/

/-- Fields of a descriptor, each an offset and a length in bytes, lie inside the descriptor, share no byte, and are naturally
aligned in every slot of an aligned ring (20_memory.md R78). -/
def bytesFit (size : Nat) (fields : List (Nat × Nat)) : Bool :=
  size % 8 == 0 && fields.all (fun f => decide (f.1 + f.2 ≤ size) && f.1 % f.2 == 0) &&
  decide (fields.Pairwise fun f g => f.1 + f.2 ≤ g.1 ∨ g.1 + g.2 ≤ f.1)

/-- A single bit as a field. -/
def bitField (n : Nat) : Field := { lo := n, width := 1 }

/-- Fields of a word lie inside it and share no bit. -/
def bitsFit (fields : List Field) : Bool :=
  fields.all (fun f => decide (f.lo + f.width ≤ 32)) &&
  decide (fields.Pairwise fun f g => f.lo + f.width ≤ g.lo ∨ g.lo + g.width ≤ f.lo)

/-- The places of the fields of `LAYOUT`: bytes in a descriptor, bits in a word. -/
def Layout.placesValid (l : Layout) : Bool :=
  bytesFit l.tpdSize [(l.tpdLen, 2), (l.tpdVlan, 2), (l.tpdCmd, 4), (l.tpdAddr, 8)] &&
  bytesFit l.rfdSize [(l.rfdAddr, 8)] &&
  bytesFit l.rrdSize [(l.rrdW0, 4), (l.rrdW1, 4), (l.rrdW2, 4), (l.rrdW3, 4)] &&
  bitsFit [l.l4off, bitField l.ipXsum, bitField l.tcpXsum, bitField l.udpXsum, bitField l.lsoEn, bitField l.lsoV2,
    bitField l.insVltag, bitField l.ipv4, l.mss, bitField l.eop] &&
  bitsFit [l.nor, l.si] && bitsFit [l.vltag, l.pid] &&
  bitsFit [l.pktlen, bitField l.errL4, bitField l.errIpv4, bitField l.vltagged, bitField l.errRes, bitField l.errFcs,
    bitField l.errFae, bitField l.errTrunc, bitField l.errRunt, bitField l.errIcmp, bitField l.errFifoFull,
    bitField l.errLen, bitField l.updated]

/-- The fields of `LAYOUT` are wide enough for the values the rules put in them: a count of up to 15 buffers, every slot
number, a length of up to 16383 bytes, a tag, a protocol ID, the two header offsets; and a ring fits the address space. -/
def Cfg.layoutValid (c : Cfg) : Bool :=
  c.layout.placesValid &&
  decide (4 ≤ c.layout.nor.width) && decide (c.nRfd ≤ 2 ^ c.layout.si.width) && decide (14 ≤ c.layout.pktlen.width) &&
  c.layout.vltag.width == 16 && c.layout.pid.width == 8 &&
  decide (c.minL4OffV4 < 2 ^ c.layout.l4off.width) && decide (c.minL4OffV6 < 2 ^ c.layout.l4off.width) &&
  decide (c.nTx * c.layout.tpdSize ≤ 2 ^ 64) && decide (c.nRrd * c.layout.rrdSize ≤ 2 ^ 64) &&
  decide (c.nRfd * c.layout.rfdSize ≤ 2 ^ 64)

/-- The constraints on `CFG` that the rules assume (70_reset_and_hazards.md R286); a configuration that violates them is
refused (93_implementation_defined.md U21). What `RegMap.valid` and `Cfg.layoutValid` ask beyond R286 is the model's choice
(log entries 3 and 21). -/
def Cfg.valid (c : Cfg) : Bool := c.ringsValid && c.roomValid && c.poolValid && c.regmap.valid && c.layoutValid

end Sys2Proof
end

