-- ==== Sys2Proof/Decode.lean ====
section
/-! DEFINITION. The operation word (30_encoding.md R130 to R132, R135): the decoder, total on every word and rejecting by
name, and after it the encoder. -/

namespace Sys2Proof

/-- Why an operation word is illegal (30_encoding.md R132). -/
inductive DecodeError where
  /-- opcode 0x00 or an opcode not in R130 -/
  | unknownOpcode
  /-- a non-zero `imm` on an operation that takes none -/
  | operandNotZero
  /-- `POLL.MODE` with `imm > 1` -/
  | pollModeOperand
  /-- `MEDIUM.SELECT` with `imm[23:5] != 0` -/
  | mediumReserved
  deriving DecidableEq, Repr

/-- `OPW[7:0]` (R130). -/
def opwOpcode (w : Word) : BitVec 8 := w.extractLsb' 0 8

/-- `imm = OPW[31:8]`, unsigned, not scaled (R131). -/
def opwImm (w : Word) : BitVec 24 := w.extractLsb' 8 24

/-- Format `OP0`: the operation takes no operand, so `imm` must be 0 (R131). -/
def decodeOp0 (i : Instr) (imm : BitVec 24) : Except DecodeError Instr :=
  if imm = 0#24 then .ok i else .error .operandNotZero

/-- Format `OPM`: `imm` is 0 or 1 (R131). -/
def decodeOpm (imm : BitVec 24) : Except DecodeError Instr :=
  if imm = 0#24 then .ok (.pollMode false) else if imm = 1#24 then .ok (.pollMode true) else .error .pollModeOperand

/-- Format `OPD`: the medium code is `imm[4:0]` and `imm[23:5]` is 0 (R131). A 1000 half code is decoded; the operation itself
refuses it (60_exceptions.md R261). -/
def decodeOpd (imm : BitVec 24) : Except DecodeError Instr :=
  if imm.extractLsb' 5 19 = 0#19 then .ok (.mediumSelect (imm.extractLsb' 0 5)) else .error .mediumReserved

/-- The operation an operation word requests (R130 to R132). -/
def decode (w : Word) : Except DecodeError Instr :=
  let imm := opwImm w
  match (opwOpcode w).toNat with
  | 0x01 => decodeOp0 .ringSetup imm
  | 0x02 => decodeOp0 .ringTeardown imm
  | 0x03 => decodeOp0 .txClear imm
  | 0x04 => decodeOp0 .rxReset imm
  | 0x10 => decodeOp0 .txqPlain imm
  | 0x11 => decodeOp0 .txqTso4 imm
  | 0x12 => decodeOp0 .txqTso6 imm
  | 0x13 => decodeOp0 .txPull imm
  | 0x14 => decodeOp0 .txReclaim imm
  | 0x20 => .ok (.rxDrain imm)
  | 0x30 => decodeOp0 .poolRefill imm
  | 0x40 => decodeOp0 .irqDispatch imm
  | 0x41 => .ok (.pollService imm)
  | 0x42 => decodeOpm imm
  | 0x43 => decodeOp0 .wdtTick imm
  | 0x44 => decodeOp0 .linkUp imm
  | 0x45 => decodeOp0 .linkDown imm
  | 0x46 => decodeOp0 .devReset imm
  | 0x47 => decodeOp0 .devEnable imm
  | 0x48 => decodeOp0 .devDisable imm
  | 0x49 => decodeOpd imm
  | _ => .error .unknownOpcode

/-- The operation number of R130, `OPW[7:0]`. -/
def Instr.opcode : Instr → BitVec 8
  | .ringSetup => 0x01#8
  | .ringTeardown => 0x02#8
  | .txClear => 0x03#8
  | .rxReset => 0x04#8
  | .txqPlain => 0x10#8
  | .txqTso4 => 0x11#8
  | .txqTso6 => 0x12#8
  | .txPull => 0x13#8
  | .txReclaim => 0x14#8
  | .rxDrain _ => 0x20#8
  | .poolRefill => 0x30#8
  | .irqDispatch => 0x40#8
  | .pollService _ => 0x41#8
  | .pollMode _ => 0x42#8
  | .wdtTick => 0x43#8
  | .linkUp => 0x44#8
  | .linkDown => 0x45#8
  | .devReset => 0x46#8
  | .devEnable => 0x47#8
  | .devDisable => 0x48#8
  | .mediumSelect _ => 0x49#8

/-- The number operand of an operation as `imm` (R131). -/
def Instr.imm : Instr → BitVec 24
  | .rxDrain b => b
  | .pollService b => b
  | .pollMode m => if m then 1#24 else 0#24
  | .mediumSelect m => m.setWidth 24
  | _ => 0#24

/-- The operation word of an operation: `imm ++ opcode` (R130). -/
def encode (i : Instr) : Word := i.imm ++ i.opcode

/-- The pseudo-operation `RX.DRAIN.ALL` is `RX.DRAIN inf` (R134); the other pseudo-operations of R134 are the shared operations
`txSend`, `rxService` and `devRestart` of the machine. -/
def rxDrainAll : Instr := .rxDrain 0xFFFFFF#24

/-- A budget operand in the textual syntax: a decimal natural or `inf` (R133). -/
def budgetText (b : BitVec 24) : String := if b = 0xFFFFFF#24 then "inf" else toString b.toNat

/-- The line of the textual syntax that requests an operation; a frame operand is a name and stands outside it (R133). -/
def instrText (i : Instr) : String :=
  match i with
  | .rxDrain b => i.mnemonic ++ " " ++ budgetText b
  | .pollService b => i.mnemonic ++ " " ++ budgetText b
  | .pollMode m => i.mnemonic ++ (if m then " 1" else " 0")
  | .mediumSelect m => i.mnemonic ++ " " ++ toString m.toNat
  | _ => i.mnemonic

/-- What the decoder reads from an instruction whose `nbits` bits are `w`. An operation word is one 32-bit word (R135); bits
above `nbits` are 0. -/
def decodeTableWord (nbits w : Nat) : Option Instr :=
  match decode (BitVec.ofNat 32 (w % 2 ^ nbits)) with
  | .ok i => some i
  | .error _ => none

end Sys2Proof
end

