-- ==== Sys2Proof/Machine/State.lean ====
section
/-! DEFINITION. The state of the machine as plain data: the record `S` of 10_state.md R21 to R39, the device registers (R40
to R45) and the MAC's hidden state (R56), host memory (20_memory.md R70), the environment's side of the boundary
(00_scope.md R8, R15, R17), and the model's own fields; the reasons a step can stop; the state after power-on. -/

namespace Sys2Proof.Machine

/-- A receive packet buffer (10_state.md R50). Its contents are the bytes of host memory from `phys` on. `next` is the link
that chains the buffers of a jumbo frame. -/
structure Buf where
  id : Nat
  cap : Nat
  phys : Addr
  len : Nat
  next : Option Nat
  deriving DecidableEq, Repr, Inhabited

/-- Host memory (20_memory.md R70, R71): the cells that do not hold `unlistedByte`, addresses strictly rising. -/
abbrev Memory := List Host.Cell

/-- What a byte of host memory that no entry lists reads as. The spec gives host memory no contents before it is written
(10_state.md R54): DESIGN CHOICE, unsafe, log entry 5. -/
def unlistedByte : Byte := 0#8

/-- The first cell of `m` stands above address `k` (nothing to say of an empty memory). -/
def aboveFirst (k : Nat) : Memory → Bool
  | [] => true
  | c :: _ => decide (k < c.1)

/-- The canonical form: addresses strictly rising and below `2^64`, no entry equal to `unlistedByte`. -/
def Memory.wf : Memory → Bool
  | [] => true
  | c :: rest => decide (c.1 < 2 ^ 64) && c.2 != unlistedByte && aboveFirst c.1 rest && Memory.wf rest

/-- A range of host memory the allocator has given out: its first address and its size in bytes. -/
structure Region where
  base : Addr
  size : Nat
  deriving DecidableEq, Repr, Inhabited

/-- A store of the core into a ring that the MAC does not see yet (20_memory.md R88): its first address, the bytes that stood
there before it, and where a `Fence()` stands behind it, how many posted doorbell writes stand before the first one that may not
reach the MAC ahead of it (R89). -/
structure LateStore where
  base : Addr
  seen : List Byte
  due : Option Nat
  deriving DecidableEq, Repr, Inhabited

/-- The two doorbells: `TPD_PIDX` and `RFD_PIDX` (10_state.md R41, R43). -/
inductive Doorbell where
  | tx | rx
  deriving DecidableEq, Repr

/-- A doorbell write that is posted and has not reached the MAC yet (20_memory.md R91), and the value of that register before
it. -/
structure Posted where
  bell : Doorbell
  before : Half
  deriving DecidableEq, Repr

/-- The transmit side: ring base, cursors, counters, stall flag, tracking array (10_state.md R21, R22, R25, R27, R29, R32).
`mbuf` is empty while the array does not exist (R54). -/
structure TxSide where
  ringPhys : Addr
  next : Half
  dirty : Half
  numFree : Word
  doneCount : Word
  stalled : Bool
  mbuf : List (Option Frame)
  deriving DecidableEq, Repr

/-- The receive side: ring bases, cursors, tracking array (10_state.md R23, R30, R31, R33). -/
structure RxSide where
  rrdPhys : Addr
  rfdPhys : Addr
  next : Half
  free : Half
  mbuf : List (Option Buf)
  deriving DecidableEq, Repr

/-- The spare-buffer pool and the refill flag (10_state.md R27, R35). `S.spareCount` is the length of `spare`. -/
structure Pool where
  spare : List Buf
  refillPending : Bool
  deriving DecidableEq, Repr

/-- The flags of 10_state.md R27 that stand in no engine's record, and whether the ring regions and tracking arrays exist
(R53). -/
structure Flags where
  enabled : Bool
  linkUp : Bool
  pollMode : Bool
  wdtArmed : Bool
  ringsUp : Bool
  deriving DecidableEq, Repr

/-- The statistics counters (10_state.md R36), unbounded naturals (R26). -/
structure Stats where
  txDrop : Nat
  txResErr : Nat
  txStall : Nat
  rxLenErr : Nat
  rxErr : Nat
  rxResErr : Nat
  rxDelivered : Nat
  resetCount : Nat
  deriving DecidableEq, Repr

/-- The watchdog state (10_state.md R37). -/
structure Watchdog where
  lastDone : Word
  stallTicks : Nat
  deriving DecidableEq, Repr

/-- What `HwMacConfigure` told the MAC: ring bases and lengths and the receive buffer size (10_state.md R46). -/
structure MacConf where
  txPhys : Addr
  nTx : Nat
  rrdPhys : Addr
  nRrd : Nat
  rfdPhys : Addr
  nRfd : Nat
  bufSize : Nat
  deriving DecidableEq, Repr

/-- The MAC agent: whether its DMA is started and with which link parameters (`none` is idle), what it was configured with,
what it advertises, and the device registers with its hidden indices (10_state.md R40 to R46, R56). -/
structure Mac where
  started : Bool
  startedWith : Option Link
  conf : MacConf
  advertised : BitVec 5
  regs : DeviceRegs
  deriving DecidableEq, Repr

/-- What the MAC reports of a received frame besides its bytes (10_state.md R58): protocol ID, error bits, VLAN tag field, and
the values it leaves in the bits the core ignores (93_implementation_defined.md U19). -/
structure RxMeta where
  pid : BitVec 8
  err : Word
  vlan : Option Half
  ignored0 : Word
  ignored1 : Word
  ignored2 : Word
  ignored3 : Word
  deriving DecidableEq, Repr

/-- One step of the MAC agent (10_state.md R57 to R59), or of the bus between the core and the MAC (20_memory.md R88). -/
inductive MacStep where
  /-- up to `k` transmit steps; `irq` says whether `ISR.TX` is set with them (R57) -/
  | txDone (k : Nat) (irq : Bool)
  /-- one frame of these bytes (CRC trailer included) is received; `irq` says whether `ISR.RX` is set (R58) -/
  | rx (bytes : List Byte) (info : RxMeta) (irq : Bool)
  /-- status bits are set (R59) -/
  | status (mask : Word)
  /-- of each descriptor that begins in `r`, the oldest late store of the core reaches the MAC (20_memory.md R88) -/
  | arrive (r : Region)
  /-- the `n` oldest posted doorbell writes reach the MAC (R91), and with them the stores fenced ahead of them (R89) -/
  | reach (n : Nat)
  deriving DecidableEq, Repr

/-- A request for an operation: its word and the operands that accompany it out of band (30_encoding.md R130). -/
structure Request where
  word : Word
  frame : Frame
  link : Link
  deriving DecidableEq, Repr

/-- What another agent does between two accesses of an operation (00_scope.md R17): a MAC step, a step of the PULLER
(41_transmit.md R183), or the STACK queues a frame, stores to its own memory or frees a buffer it was given. -/
inductive MidStep where
  | mac (m : MacStep)
  | pull
  | offer (f : Frame)
  | hostWrite (a : Addr) (bytes : List Byte)
  | bufReturn (r : Region)
  deriving DecidableEq, Repr

/-- An answer the environment will give to a coming call (00_scope.md R15). -/
inductive Answer where
  | alloc (a : Option BufAnswer)
  | dma (a : Option Addr)
  | hw (a : HwAnswer)
  | phy (a : Option Link)
  deriving DecidableEq, Repr

/-- What happens next, between operations: a request reaches the serialized context, the MAC or the PULLER steps, the STACK
queues an outbound frame, the host writes its own memory or frees a buffer it was given, or an environment answer is settled
(00_scope.md R15, R17; 30_encoding.md R133). -/
inductive Event where
  | op (r : Request)
  | mac (m : MacStep)
  /-- the PULLER takes a step (41_transmit.md R177, R183) -/
  | pull
  | offer (f : Frame)
  | answer (a : Answer)
  /-- the directive `alloc.fail k` of R133: the next `k` `BufAlloc` calls return `none` -/
  | allocFail (k : Nat)
  /-- bytes stored by another user of host memory: what the STACK writes into a frame (41_transmit.md R166), what a fresh
  buffer holds (93_implementation_defined.md U18). The core's rings and buffers are not theirs to write (20_memory.md R92),
  nor are the bytes of a published frame (R95). -/
  | hostWrite (a : Addr) (bytes : List Byte)
  /-- the STACK frees a buffer it was given -/
  | bufReturn (r : Region)
  /-- from now on the MAC does, or does not, complete frames for as long as an unbounded drain runs
  (70_reset_and_hazards.md R298) -/
  | ceaseless (on : Bool)
  /-- from now on stores of the core to the rings and doorbell writes may, or may not, reach the MAC late (20_memory.md R88,
  R91) -/
  | slowBus (on : Bool)
  deriving DecidableEq, Repr

/-- The events the core raises (60_exceptions.md R240). -/
inductive CoreEvent where
  | txDropGate | txResource | txStall | rxLength | rxError | rxResource | hwDeadlock | hwFatal
  | cfgSetupFail | cfgTimeout | cfgInvalidMedium
  deriving DecidableEq, Repr

/-- A hardware call and its arguments (60_exceptions.md R246). -/
inductive HwCall where
  | macReset
  | macConfigure (c : MacConf)
  /-- `none` is `idle` -/
  | macStart (p : Option Link)
  | setAdvertise (m : BitVec 5)
  deriving DecidableEq, Repr

/-- What `Log` is called with (60_exceptions.md R249, R262). -/
inductive LogText where
  | fatalInterrupt | alert | transmitDeadlock
  deriving DecidableEq, Repr

/-- What the core does that another agent can observe, and what the MAC fetched. The trace of these is the model's own record
(log entry 7): no operation reads it. -/
inductive Act where
  /-- `RegWrite<width>(offset, value)` (00_scope.md R6) -/
  | regWrite (offset width : Nat) (value : Word)
  /-- `RegFlush()` (20_memory.md R91) -/
  | regFlush
  /-- `Fence()` (20_memory.md R89) -/
  | fence
  /-- `EnqueueInbound(chain, length, csumValid, vlan)` (10_state.md R52) -/
  | inbound (chain : List Buf) (length : Nat) (csum : BitVec 5) (vlan : Option Half)
  /-- `FlushInboundBatch()` -/
  | flushBatch
  /-- `SignalQueueResumable()` -/
  | signalResumable
  /-- `ReleaseFrame(f)`: unmapped and returned to the STACK, as sent or not (41_transmit.md R180, 40_rings.md R147) -/
  | release (f : Frame) (sent : Bool)
  /-- `SgUnmap(f)` of a refused frame (41_transmit.md R168) -/
  | sgUnmap (f : Frame)
  | bufFree (b : Buf)
  | dmaFree (base : Addr) (size : Nat)
  /-- an event was raised (60_exceptions.md R240) -/
  | raised (e : CoreEvent)
  | log (t : LogText)
  /-- `POOL.REFILL` was scheduled (42_receive.md R201) -/
  | refillScheduled
  /-- a hardware call and whether it answered `OK` -/
  | hw (c : HwCall) (ok : Bool)
  /-- the MAC fetched the transmit descriptor of a slot: its bytes, and the bytes of host memory it names (10_state.md R57) -/
  | macFetch (slot : Half) (descriptor data : List Byte)
  deriving DecidableEq, Repr

/-- The result of an operation, visible to its caller (00_scope.md R14, 41_transmit.md R179, 60_exceptions.md R244). -/
inductive Result where
  /-- the operation returned, and its rule names no result -/
  | returned
  | ok
  | fail
  /-- refused: no effect (60_exceptions.md R270) or an illegal word (30_encoding.md R132) -/
  | refused
  | sent
  | droppedGate
  | droppedResource
  | stall
  /-- the number of frames delivered (42_receive.md R190) -/
  | count (n : Nat)
  deriving DecidableEq, Repr

/-- Where the PULLER stands in `TX.PULL` (41_transmit.md R177). In the pull model it runs outside the serialized context, so that
other operations come between its accesses (R183). -/
inductive PullPhase where
  /-- no `TX.PULL` is in progress -/
  | idle
  /-- at the head of the loop -/
  | looping
  /-- it has read `S.txNumFree` -/
  | saw (free : Word)
  /-- it has dequeued a frame and is about to send it -/
  | holds (f : Frame)
  deriving DecidableEq, Repr

/-- The environment's side of the boundary: the answers it has settled, the memory it has given out, the STACK's outbound
queue, what other agents will do at the coming interleaving points of an operation, and what the PULLER has been told. -/
structure Env where
  alloc : List (Option BufAnswer)
  dma : List (Option Addr)
  hw : List HwAnswer
  phy : List (Option Link)
  outbound : List Frame
  during : List (List MidStep)
  /-- how many unsettled answers have been drawn so far -/
  draws : Nat
  /-- every region given out and not yet freed: ring regions, and buffers the core holds or the STACK was given -/
  live : List Region
  /-- the identity the next new buffer gets -/
  nextBuf : Nat
  /-- `SignalQueueResumable` was called and no `TX.PULL` has run since -/
  resumable : Bool
  /-- the STACK has queued a frame and no `TX.PULL` has begun since (41_transmit.md R177) -/
  offered : Bool
  /-- the MAC completes frames for as long as an unbounded drain runs (70_reset_and_hazards.md R298) -/
  ceaseless : Bool
  /-- stores of the core to the rings and doorbell writes may reach the MAC late (20_memory.md R88, R91) -/
  slowBus : Bool
  deriving DecidableEq, Repr

/-- The machine (10_state.md R20). `cfg` is the configuration, an argument no operation writes (log entry 1); `frameArg` and
`linkArg` are the out-of-band operands of the request being carried out; `mem` is host memory as the core sees it, `late` the
stores the MAC does not see yet, newest first, and `posted` the doorbell writes that have not reached it, oldest first
(20_memory.md R88, R91; log entry 11); `puller` is a `TX.PULL` in progress (41_transmit.md R183;
log entry 11); `foreign` counts the free header bytes stored so far (log entry 23); it, `pending`, `result` and `trace` are the
model's own (log entries 6, 7 and 23). -/
structure State where
  cfg : Cfg
  tx : TxSide
  rx : RxSide
  pool : Pool
  flags : Flags
  stats : Stats
  wdt : Watchdog
  link : Link
  medium : BitVec 5
  intrMask : Word
  mac : Mac
  mem : Memory
  late : List LateStore
  posted : List Posted
  puller : PullPhase
  foreign : Nat
  env : Env
  frameArg : Frame
  linkArg : Link
  pending : List Event
  result : Result
  /-- newest first -/
  trace : List Act
  deriving DecidableEq, Repr

/-- Where the machine stops with a fault. -/
inductive Fault where
  /-- Raised by `RX.DRAIN inf`, also inside `POLL.SERVICE inf`, against a MAC that never stops completing frames
  (93_implementation_defined.md U22, `stuck`). Safe: the machine stops where the hardware goes on walking. -/
  | drainUnbounded
  /-- Raised by the receive walker when the tracking array has no buffer at a slot a completion names, which 10_state.md R49
  excludes for every state a run reaches (43_buffer_pool.md R220, precondition). Safe: the machine stops. -/
  | noBufferPosted
  deriving DecidableEq, Repr

/-- Where the spec gives a situation no meaning (93_implementation_defined.md, treatment `refuse`), one constructor per
situation. All are safe: the model stops and claims nothing. -/
inductive Refusal where
  /-- Raised by an arm of `exec` for an operation that has no meaning in the model. Safe. -/
  | notModelled (mnemonic : String)
  /-- Raised by `step` for a configuration that violates 70_reset_and_hazards.md R286 (U21). Safe. -/
  | invalidConfig
  /-- Raised by a transmit enqueue on a frame whose `tsoMode` is not the operation's (U14, 41_transmit.md R162). Safe. -/
  | wrongOffload
  /-- Raised by `TXQ.TSO4` and `TXQ.TSO6` on an MSS of 0 or above the field (U6, 30_encoding.md R106). Safe. -/
  | mssOutOfRange
  /-- Raised by the TSO header fix-ups on a frame shorter than the offsets they touch (U7, 41_transmit.md R169, R170). Safe. -/
  | frameTooShort
  /-- Raised by `TX.RECLAIM` when `TPD_CIDX` is outside `[txDirty, txNext]` (U3, 41_transmit.md R182 (c)). Safe. -/
  | consumerIndexOutside
  /-- Raised by `RX.DRAIN` on a completion with buffer count 0 (U1, 42_receive.md R192). Safe. -/
  | completionCountZero
  /-- Raised by `RX.DRAIN` on a completion whose start index is not `rxFree` (U2, 42_receive.md R192). Safe. -/
  | completionStartIndex
  /-- Raised by `RX.DRAIN` on a completion shorter than the CRC trailer (U4, 42_receive.md R192). Safe. -/
  | completionTooShort
  /-- Raised by `RX.DRAIN` on a completion whose length does not fit its buffers (U5, 43_buffer_pool.md R226 (e)). Safe. -/
  | completionMisfit
  /-- Raised by link evaluation and `LINK.UP` on link parameters that are no valid medium (U8, 60_exceptions.md R256). Safe. -/
  | invalidLink
  /-- Raised by `TX.CLEAR`, `RX.RESET` and `RING.TEARDOWN` requested while the MAC's DMA is running (U10). Safe. -/
  | macRunning
  /-- Raised where a memory or register access would be misaligned (U23, 20_memory.md R78, R80). Safe. -/
  | misaligned
  /-- Raised by the register interface on a width other than the one `REGMAP` lists (U23, 20_memory.md R76). Safe. -/
  | registerWidth
  /-- Raised by the register interface on an offset that is none of the five registers (20_memory.md R72). Safe. -/
  | noSuchRegister
  deriving DecidableEq, Repr

/-- A frame operand that requests nothing and maps to nothing: what the operand place holds at power-on. -/
def emptyFrame : Frame :=
  { id := 0, tsoMode := .none, mss := 0#16, csumReq := 0#5, vlan := none, segs := none }

/-- No ring: cursors and counters 0 (10_state.md R54 column (a)). -/
def TxSide.powerOn : TxSide :=
  { ringPhys := 0#64, next := 0#16, dirty := 0#16, numFree := 0#32, doneCount := 0#32, stalled := false, mbuf := [] }

/-- No ring (R54 column (a)). -/
def RxSide.powerOn : RxSide := { rrdPhys := 0#64, rfdPhys := 0#64, next := 0#16, free := 0#16, mbuf := [] }

/-- All counters 0 (R54 column (a)). -/
def Stats.zero : Stats :=
  { txDrop := 0, txResErr := 0, txStall := 0, rxLenErr := 0, rxErr := 0, rxResErr := 0, rxDelivered := 0, resetCount := 0 }

/-- The MAC before its first reset. R54 leaves its registers unspecified there; 0 is DESIGN CHOICE, log entry 4. -/
def Mac.powerOn : Mac where
  started := false
  startedWith := none
  conf := { txPhys := 0#64, nTx := 0, rrdPhys := 0#64, nRrd := 0, rfdPhys := 0#64, nRfd := 0, bufSize := 0 }
  advertised := 0#5
  regs := DeviceRegs.zero

/-- An environment that has settled nothing, given nothing out and queued nothing. -/
def Env.empty : Env :=
  { alloc := [], dma := [], hw := [], phy := [], outbound := [], during := [], draws := 0, live := [], nextBuf := 0,
    resumable := false, offered := false, ceaseless := false, slowBus := false }

/-- Power-on (70_reset_and_hazards.md R281): column (a) of 10_state.md R54. -/
def State.reset : State where
  cfg := Cfg.default
  tx := TxSide.powerOn
  rx := RxSide.powerOn
  pool := { spare := [], refillPending := false }
  flags := { enabled := false, linkUp := false, pollMode := false, wdtArmed := false, ringsUp := false }
  stats := Stats.zero
  wdt := { lastDone := 0#32, stallTicks := 0 }
  link := Link.down
  medium := 0#5
  intrMask := 0#32
  mac := Mac.powerOn
  mem := []
  late := []
  posted := []
  puller := .idle
  foreign := 0
  env := Env.empty
  frameArg := emptyFrame
  linkArg := Link.down
  pending := []
  result := .returned
  trace := []

/-- `s` with its `tx` replaced. -/
def State.setTx (s : State) (v : TxSide) : State := { s with tx := v }

/-- `s` with its `rx` replaced. -/
def State.setRx (s : State) (v : RxSide) : State := { s with rx := v }

/-- `s` with its `pool` replaced. -/
def State.setPool (s : State) (v : Pool) : State := { s with pool := v }

/-- `s` with its `flags` replaced. -/
def State.setFlags (s : State) (v : Flags) : State := { s with flags := v }

/-- `s` with its `stats` replaced. -/
def State.setStats (s : State) (v : Stats) : State := { s with stats := v }

/-- `s` with its `wdt` replaced. -/
def State.setWdt (s : State) (v : Watchdog) : State := { s with wdt := v }

/-- `s` with its `link` replaced. -/
def State.setLink (s : State) (v : Link) : State := { s with link := v }

/-- `s` with its `medium` replaced. -/
def State.setMedium (s : State) (v : BitVec 5) : State := { s with medium := v }

/-- `s` with its `intrMask` replaced. -/
def State.setIntrMask (s : State) (v : Word) : State := { s with intrMask := v }

/-- `s` with its `mac` replaced. -/
def State.setMac (s : State) (v : Mac) : State := { s with mac := v }

/-- `s` with its `mem` replaced. -/
def State.setMem (s : State) (v : Memory) : State := { s with mem := v }

/-- `s` with its `late` replaced. -/
def State.setLate (s : State) (v : List LateStore) : State := { s with late := v }

/-- `s` with its `posted` replaced. -/
def State.setPosted (s : State) (v : List Posted) : State := { s with posted := v }

/-- `s` with its `puller` replaced. -/
def State.setPuller (s : State) (v : PullPhase) : State := { s with puller := v }

/-- `s` with its `foreign` replaced. -/
def State.setForeign (s : State) (v : Nat) : State := { s with foreign := v }

/-- `s` with its `env` replaced. -/
def State.setEnv (s : State) (v : Env) : State := { s with env := v }

/-- `s` with its `pending` replaced. -/
def State.setPending (s : State) (v : List Event) : State := { s with pending := v }

/-- `s` with its `result` replaced. -/
def State.setResult (s : State) (v : Result) : State := { s with result := v }

/-- `s` with one more act in its trace. -/
def State.emit (s : State) (a : Act) : State := { s with trace := a :: s.trace }

/-- `s` with the out-of-band operands of a request in place. -/
def State.setArgs (s : State) (f : Frame) (p : Link) : State := { s with frameArg := f, linkArg := p }

end Sys2Proof.Machine
end

