-- ==== Sys2Proof/Machine/Ops.lean ====
section
/-! DEFINITION. The named operations every meaning is built from: ring index arithmetic, bit fields, host memory, device
registers, events (the core's exceptions), the environment's answers and the hardware calls, and the shared way an operation
is refused. -/

namespace Sys2Proof.Machine

/-! ### Outcomes -/

/-- What one step answers on this machine. -/
abbrev Out := Host.Outcome State Fault Refusal

/-- Go on from a next state, or from what else an operation hands on; a fault or a refusal stands. -/
def andThen {α β : Type} (o : Host.Outcome α Fault Refusal) (f : α → Host.Outcome β Fault Refusal) :
    Host.Outcome β Fault Refusal :=
  match o with
  | .next s => f s
  | .fault r => .fault r
  | .refused r => .refused r

/-- An operation refused in a mode where its precondition fails: "no effect, the model gives the request no meaning beyond
returning" (60_exceptions.md R270). -/
def refuse (s : State) : State := s.setResult .refused

/-! ### Ring index arithmetic (00_scope.md R16, 40_rings.md R140, R141) -/

/-- `inc(i, k, N) = (i + k) & (N - 1)`, the sum taken without overflow. -/
def inc (i : Half) (k n : Nat) : Half := BitVec.ofNat 16 ((i.toNat + k) &&& (n - 1))

/-- `dist(a, b, N) = (b - a) & (N - 1)`, the steps from `a` forward to `b`. -/
def dist (a b : Half) (n : Nat) : Nat := (b - a).toNat &&& (n - 1)

/-- The address of slot `i` of a ring of `size`-byte descriptors (R141). -/
def slotAddr (base : Addr) (size : Nat) (i : Half) : Addr := base + BitVec.ofNat 64 (size * i.toNat)

/-- The address `off` bytes on: a field of a descriptor. -/
def fieldAddr (a : Addr) (off : Nat) : Addr := a + BitVec.ofNat 64 off

/-- The address of a transmit descriptor (30_encoding.md R100, R101). -/
def tpdSlotAddr (c : Cfg) (base : Addr) (i : Half) : Addr := slotAddr base c.layout.tpdSize i

/-- The address of a completion descriptor (R100, R110). -/
def rrdSlotAddr (c : Cfg) (base : Addr) (i : Half) : Addr := slotAddr base c.layout.rrdSize i

/-- The address of the one field of a receive-free descriptor (R100, R109). -/
def rfdFieldAddr (c : Cfg) (base : Addr) (i : Half) : Addr :=
  fieldAddr (slotAddr base c.layout.rfdSize i) c.layout.rfdAddr

/-- The sizes in bytes of the three ring regions (20_memory.md R77). -/
def txBytes (c : Cfg) : Nat := c.layout.tpdSize * c.nTx
/-- See `txBytes`. -/
def rrdBytes (c : Cfg) : Nat := c.layout.rrdSize * c.nRrd
/-- See `txBytes`. -/
def rfdBytes (c : Cfg) : Nat := c.layout.rfdSize * c.nRfd

/-! ### Bit fields and byte order (00_scope.md R11) -/

/-- `swap16(v) = v[7:0] ++ v[15:8]`. -/
def swap16 (v : Half) : Half := v.extractLsb' 0 8 ++ v.extractLsb' 8 8

/-- The word with bit `n` set. -/
def bitWord (n : Nat) : Word := 1#32 <<< n

/-- Bit `n` of a word. -/
def wordBit (w : Word) (n : Nat) : Bool := w.getLsbD n

/-- A word of `n` ones. -/
def lowMask (n : Nat) : Word := bitWord n - 1#32

/-- The value of a field of a word. -/
def getField (w : Word) (f : Field) : Word := (w >>> f.lo) &&& lowMask f.width

/-- A value placed in a field, every other bit 0. -/
def putField (v : Word) (f : Field) : Word := (v &&& lowMask f.width) <<< f.lo

/-! ### Host memory (20_memory.md R70 to R73) -/

/-- The byte at an address. -/
def readByte : Memory → Addr → Byte
  | [], _ => unlistedByte
  | c :: rest, a => if c.1 = a.toNat then c.2 else readByte rest a

/-- A value put in front of a memory whose entries all stand above `k`, unless it is what an unlisted address reads as. -/
def consCell (k : Nat) (v : Byte) (m : Memory) : Memory := if v = unlistedByte then m else (k, v) :: m

/-- The canonical form with the byte at address `k` replaced. -/
def putCell : Memory → Nat → Byte → Memory
  | [], k, v => consCell k v []
  | c :: rest, k, v =>
    if k < c.1 then consCell k v (c :: rest)
    else if k = c.1 then consCell k v rest
    else c :: putCell rest k v

/-- One byte written. -/
def writeByte (m : Memory) (a : Addr) (v : Byte) : Memory := putCell m a.toNat v

/-- Whether an address is one of the `n` bytes from `base` on. -/
def inRange (base : Addr) (n : Nat) (a : Addr) : Bool := decide ((a - base).toNat < n)

/-- Every byte of a region written 0 (20_memory.md R81, ring zeroing). -/
def zeroRange (m : Memory) (base : Addr) (n : Nat) : Memory :=
  m.filter fun c => !inRange base n (BitVec.ofNat 64 c.1)

/-- `MemWrite(a, 2, v)`, little-endian (00_scope.md R13). -/
def store16 (m : Memory) (a : Addr) (v : Half) : Memory :=
  writeByte (writeByte m a (v.extractLsb' 0 8)) (a + 1#64) (v.extractLsb' 8 8)

/-- `MemWrite(a, 4, v)`. -/
def store32 (m : Memory) (a : Addr) (v : Word) : Memory :=
  store16 (store16 m a (v.extractLsb' 0 16)) (a + 2#64) (v.extractLsb' 16 16)

/-- `MemWrite(a, 8, v)`. -/
def store64 (m : Memory) (a : Addr) (v : BitVec 64) : Memory :=
  store32 (store32 m a (v.extractLsb' 0 32)) (a + 4#64) (v.extractLsb' 32 32)

/-- `MemRead(a, 2)`. -/
def load16 (m : Memory) (a : Addr) : Half := readByte m (a + 1#64) ++ readByte m a

/-- `MemRead(a, 4)`. -/
def load32 (m : Memory) (a : Addr) : Word := load16 m (a + 2#64) ++ load16 m a

/-- `MemRead(a, 8)`. -/
def load64 (m : Memory) (a : Addr) : BitVec 64 := load32 m (a + 4#64) ++ load32 m a

/-- The `n` bytes from an address on. -/
def readBytes (m : Memory) (a : Addr) : Nat → List Byte
  | 0 => []
  | n + 1 => readByte m a :: readBytes m (a + 1#64) n

/-- Bytes stored from an address on. -/
def writeBytes (m : Memory) (a : Addr) : List Byte → Memory
  | [] => m
  | b :: bs => writeBytes (writeByte m a b) (a + 1#64) bs

/-- `MemCopy(dst, src, n)` (00_scope.md R13). -/
def memCopy (m : Memory) (dst src : Addr) (n : Nat) : Memory := writeBytes m dst (readBytes m src n)

/-- A ring base at which every descriptor field is naturally aligned (20_memory.md R78). -/
def aligned8 (a : Addr) : Bool := a.toNat % 8 == 0

/-! ### Regions of host memory (20_memory.md R77, R79, R86) -/

/-- Two regions share no byte: neither begins inside the other. -/
def apart (p q : Region) : Bool := !inRange p.base p.size q.base && !inRange q.base q.size p.base

/-- All of one region is in another. -/
def within (p q : Region) : Bool := decide ((p.base - q.base).toNat + p.size ≤ q.size)

/-- The memory of a buffer: one physically contiguous extent (10_state.md R50). -/
def bufRegion (b : Buf) : Region := { base := b.phys, size := b.cap }

/-- The three ring regions (R77). -/
def ringRegions (s : State) : List Region :=
  [{ base := s.tx.ringPhys, size := txBytes s.cfg }, { base := s.rx.rrdPhys, size := rrdBytes s.cfg },
    { base := s.rx.rfdPhys, size := rfdBytes s.cfg }]

/-- The ring regions while they exist (10_state.md R53). -/
def ringsInUse (s : State) : List Region := if s.flags.ringsUp then ringRegions s else []

/-- The buffers a tracking array holds, in slot order. -/
def tracked (l : List (Option Buf)) : List Buf := l.filterMap id

/-- The memory of the buffers the core holds, posted and spare (43_buffer_pool.md R229). -/
def heldRegions (s : State) : List Region := (tracked s.rx.mbuf ++ s.pool.spare).map bufRegion

/-- All the host memory the core holds: no other agent but the MAC writes it (R92). -/
def coreRegions (s : State) : List Region := heldRegions s ++ ringsInUse s

/-- The memory of a segment (R87). -/
def segRegion (g : Seg) : Region := { base := g.addr, size := g.len.toNat }

/-- The memory of a frame: its segments (41_transmit.md R166). -/
def frameRegions (f : Frame) : List Region := (f.segs.getD []).map segRegion

/-- The frames a tracking array holds, in slot order. -/
def inFlight (l : List (Option Frame)) : List Frame := l.filterMap id

/-- The memory of the frames published and not reclaimed: their bytes do not change (R94, R95; 70_reset_and_hazards.md R294). -/
def sentRegions (s : State) : List Region :=
  if s.flags.ringsUp then (inFlight s.tx.mbuf).flatMap frameRegions else []

/-- What no other user of host memory stores to or gives back: what the core holds, and the frames in flight (R92, R95). -/
def keptRegions (s : State) : List Region := coreRegions s ++ sentRegions s

/-- What an allocator gives no one else: every region given out, and the frames in flight (R86, R95). -/
def takenRegions (s : State) : List Region := s.env.live ++ sentRegions s

/-- A region an allocator can give while those of `live` are taken: aligned, inside the address space, and sharing no byte
with any of them (R77, R79, R86). -/
def freeAmong (align : Nat) (live : List Region) (r : Region) : Bool :=
  r.base.toNat % align == 0 && decide (r.base.toNat + r.size ≤ 2 ^ 64) && live.all (apart r)

/-- A region given out. -/
def takeRegion (r : Region) (s : State) : State := s.setEnv { s.env with live := r :: s.env.live }

/-- A region given back. -/
def dropRegion (r : Region) (s : State) : State := s.setEnv { s.env with live := s.env.live.erase r }

/-! ### Stores the MAC sees late (20_memory.md R88, R89) -/

/-- The descriptor, or what stands in its place, that a late store is to. -/
def lateRegion (e : LateStore) : Region := { base := e.base, size := e.seen.length }

/-- Host memory as the MAC sees it: where stores of the core are late, the bytes from before the oldest of them. -/
def macView (s : State) : Memory := s.late.foldl (fun m e => writeBytes m e.base e.seen) s.mem

/-- The store to a descriptor at `a` has not reached the MAC. -/
def isLate (a : Addr) (s : State) : Bool := s.late.any fun e => e.base == a

/-- The memory of each descriptor of a ring. -/
def slotRegions (base : Addr) (size n : Nat) : List Region :=
  (List.range n).map fun i => { base := slotAddr base size (BitVec.ofNat 16 i), size := size }

/-- The descriptors of the transmit ring. -/
def txSlots (s : State) : List Region := slotRegions s.tx.ringPhys s.cfg.layout.tpdSize s.cfg.nTx

/-- The descriptors of the completion ring. -/
def rrdSlots (s : State) : List Region := slotRegions s.rx.rrdPhys s.cfg.layout.rrdSize s.cfg.nRrd

/-- The descriptors of the free ring. -/
def rfdSlots (s : State) : List Region := slotRegions s.rx.rfdPhys s.cfg.layout.rfdSize s.cfg.nRfd

/-- The descriptors of the three rings. -/
def allSlots (s : State) : List Region := txSlots s ++ rrdSlots s ++ rfdSlots s

/-- A late store is to one of these descriptors whole, or has nothing to do with them. -/
def fitsSlots (slots : List Region) (e : LateStore) : Bool := slots.all fun r => lateRegion e == r || apart (lateRegion e) r

/-- What stands in a descriptor before the core stores to it. A late store to a part of it, from rings that stood otherwise,
counts as not made: it becomes one with the new store. -/
def beforeStore (slots : List Region) (s : State) (r : Region) : LateStore :=
  let before := macView (s.setLate (s.late.filter fun e => !fitsSlots slots e))
  { base := r.base, seen := readBytes before r.base r.size, due := none }

/-- The late stores once the core has stored to some descriptors. If the environment holds stores back, the new ones join the
older ones to the same descriptors, and the MAC goes on seeing these as it does now; if not, it sees the new stores, and with them
every older one to the same place. -/
def held (slots : List Region) (s : State) : List LateStore :=
  if s.env.slowBus then slots.map (beforeStore slots s) ++ s.late.filter (fitsSlots slots)
  else s.late.filter fun e => slots.all (apart (lateRegion e))

/-- The core is about to store to descriptors, and nothing says when the MAC sees it. Whether a store is held back, and when it
reaches the MAC, is for other agents to choose (`Env.slowBus`, `MacStep.arrive`), up to the arrival of a doorbell write that a
`Fence()` orders behind it (R88, R89). Every other store stands behind the fence of its doorbell. Which stores can be late is the
model's choice (DESIGN CHOICE, log entry 11). -/
def holdLate (slots : List Region) (s : State) : State := s.setLate (held slots s)

/-- The late stores behind a `Fence()`: the next doorbell write, behind the `k` that are posted, does not reach the MAC ahead of
them (R89). -/
def fenced (k : Nat) (l : List LateStore) : List LateStore := l.map fun e => { e with due := some (e.due.getD k) }

/-- What the arrival of `n` posted doorbell writes leaves of a late store: none of one that is fenced ahead of them (R89). -/
def afterBells (n : Nat) (e : LateStore) : Option LateStore :=
  match e.due with
  | none => some e
  | some k => if k < n then none else some { e with due := some (k - n) }

/-- The late stores after the `n` oldest posted doorbell writes have reached the MAC. -/
def lateAfter (n : Nat) (l : List LateStore) : List LateStore := l.filterMap (afterBells n)

/-- The `n` oldest posted doorbell writes reach the MAC, in issue order (R91), and the stores fenced ahead of them (R89). -/
def reach (n : Nat) (s : State) : State := (s.setLate (lateAfter n s.late)).setPosted (s.posted.drop n)

/-- Every posted doorbell write reaches the MAC. -/
def reachAll (s : State) : State := reach s.posted.length s

/-- The value a doorbell was last written with, as the core sees it. -/
def bellValue (b : Doorbell) (s : State) : Half :=
  match b with
  | .tx => s.mac.regs.tpdPidx
  | .rx => s.mac.regs.rfdPidx

/-- The value of a doorbell that has reached the MAC (R91). -/
def bellSeen (b : Doorbell) (s : State) : Half :=
  match s.posted.find? fun p => p.bell == b with
  | none => bellValue b s
  | some p => p.before

/-- The posted writes behind a new write of a doorbell. -/
def postedAfter (b : Doorbell) (s : State) : List Posted :=
  if s.env.slowBus then s.posted ++ [{ bell := b, before := bellValue b s }] else []

/-- The late stores behind a new doorbell write: one that is not posted reaches the MAC at once, and all before it (R91). -/
def lateAfterBell (s : State) (l : List LateStore) : List LateStore :=
  if s.env.slowBus then l else lateAfter (s.posted.length + 1) l

/-- A doorbell is about to be written. Whether the write is posted, and when it reaches the MAC, is for other agents to choose
(`Env.slowBus`, `MacStep.reach`), up to the next `RegFlush()` (R91). -/
def postBell (b : Doorbell) (s : State) : State := (s.setLate (lateAfterBell s s.late)).setPosted (postedAfter b s)

/-! ### Device registers (10_state.md R40 to R45, 20_memory.md R76, R80, R83) -/

/-- The five device registers. -/
inductive Reg where
  | tpdPidx | tpdCidx | rfdPidx | isr | imr
  deriving DecidableEq, Repr

/-- The entry of `REGMAP` for a register. -/
def regInfo (c : Cfg) : Reg → RegInfo
  | .tpdPidx => c.regmap.tpdPidx
  | .tpdCidx => c.regmap.tpdCidx
  | .rfdPidx => c.regmap.rfdPidx
  | .isr => c.regmap.isr
  | .imr => c.regmap.imr

/-- A write to `ISR`: a 1 acknowledges a source bit, a 0 leaves it, and the DIS bit takes the value written (R44). -/
def isrWrite (dis old v : Word) : Word := (old &&& ~~~v &&& ~~~dis) ||| (v &&& dis)

/-- What a register write leaves in the device registers. `TPD_CIDX` is read-only to the core (R42). -/
def regStore (c : Cfg) (r : Reg) (v : Word) (d : DeviceRegs) : DeviceRegs :=
  match r with
  | .tpdPidx => { d with tpdPidx := v.setWidth 16 }
  | .tpdCidx => d
  | .rfdPidx => { d with rfdPidx := v.setWidth 16 }
  | .isr => { d with isr := isrWrite c.isr.dis d.isr v }
  | .imr => { d with imr := v }

/-- The value a register reads as; reading has no side effect (20_memory.md R83) and is always fresh (R84). -/
def regRead (r : Reg) (s : State) : Word :=
  match r with
  | .tpdPidx => s.mac.regs.tpdPidx.setWidth 32
  | .tpdCidx => s.mac.regs.txCons.setWidth 32
  | .rfdPidx => s.mac.regs.rfdPidx.setWidth 32
  | .isr => s.mac.regs.isr
  | .imr => s.mac.regs.imr

/-- A write of one of the doorbells may be posted. One of `IMR` or `ISR` may be too, which shows in nothing but when a dispatch is
requested and which bits the MAC sets; `TPD_CIDX` is not written (20_memory.md R91; log entry 11). -/
def postReg (r : Reg) (s : State) : State :=
  match r with
  | .tpdPidx => postBell .tx s
  | .rfdPidx => postBell .rx s
  | .tpdCidx => s
  | .isr => s
  | .imr => s

/-- A register written through the register interface at its own offset and width. -/
def regWrite (r : Reg) (v : Word) (s : State) : State :=
  ((postReg r s).setMac { s.mac with regs := regStore s.cfg r v s.mac.regs }).emit
    (.regWrite (regInfo s.cfg r).offset (regInfo s.cfg r).width v)

/-- `RegFlush()` (20_memory.md R91): every register write before it has reached the device. -/
def regFlush (s : State) : State := (reachAll s).emit .regFlush

/-- `Fence()` (20_memory.md R89): every store before it is seen by the MAC ahead of every register write after it. The core's
own view is in program order anyway (R88). -/
def fence (s : State) : State := (s.setLate (fenced s.posted.length s.late)).emit .fence

/-- The register at an offset of the register space, if one of the five stands there. -/
def regAt (c : Cfg) (offset : Nat) : Option Reg :=
  [Reg.tpdPidx, .tpdCidx, .rfdPidx, .isr, .imr].find? fun r => (regInfo c r).offset == offset

/-- Why an access of the register interface is refused, if it is (20_memory.md R72, R76, R80). -/
def busProblem (c : Cfg) (offset width : Nat) : Option Refusal :=
  match regAt c offset with
  | none => some .noSuchRegister
  | some r =>
    if (regInfo c r).width ≠ width then some .registerWidth
    else if offset % (width / 8) ≠ 0 then some .misaligned
    else none

/-- `write<width>(offset, value)` of the register interface (00_scope.md R6). -/
def busWrite (offset width : Nat) (v : Word) (s : State) : Out :=
  match busProblem s.cfg offset width, regAt s.cfg offset with
  | some p, _ => .refused p
  | none, some r => .next (regWrite r v s)
  | none, none => .refused .noSuchRegister

/-- `read<width>(offset)` of the register interface: the value, or why it is refused. -/
def busRead (offset width : Nat) (s : State) : Except Refusal Word :=
  match busProblem s.cfg offset width, regAt s.cfg offset with
  | some p, _ => .error p
  | none, some r => .ok (regRead r s)
  | none, none => .error .noSuchRegister

/-! ### Events: the core's exceptions (60_exceptions.md R240 to R242) -/

/-- The numeric code of an event (R240). -/
def eventCode : CoreEvent → Nat
  | .txDropGate => 1
  | .txResource => 2
  | .txStall => 3
  | .rxLength => 4
  | .rxError => 5
  | .rxResource => 6
  | .hwDeadlock => 7
  | .hwFatal => 8
  | .cfgSetupFail => 9
  | .cfgTimeout => 10
  | .cfgInvalidMedium => 11

/-- The counter an event increments (R240, 10_state.md R36); the configuration events have none. -/
def countEvent (e : CoreEvent) (t : Stats) : Stats :=
  match e with
  | .txDropGate => { t with txDrop := t.txDrop + 1 }
  | .txResource => { t with txResErr := t.txResErr + 1 }
  | .txStall => { t with txStall := t.txStall + 1 }
  | .rxLength => { t with rxLenErr := t.rxLenErr + 1 }
  | .rxError => { t with rxErr := t.rxErr + 1 }
  | .rxResource => { t with rxResErr := t.rxResErr + 1 }
  | .hwDeadlock => { t with resetCount := t.resetCount + 1 }
  | .hwFatal => { t with resetCount := t.resetCount + 1 }
  | .cfgSetupFail => t
  | .cfgTimeout => t
  | .cfgInvalidMedium => t

/-- `raise E`: the one shared operation by which an event is taken. It adds 1 to the event's counter and records nothing
else; it saves nothing, changes no mode and transfers control nowhere, and there is no return from it (R240, R242). -/
def raise (e : CoreEvent) (s : State) : State := (s.setStats (countEvent e s.stats)).emit (.raised e)

/-- `Log(text)` has no effect on the machine's own state (00_scope.md R14). -/
def log (t : LogText) (s : State) : State := s.emit (.log t)

/-! ### The environment's answers (00_scope.md R8, R15) -/

/-- The environment with one more unsettled answer drawn. -/
def drawn (e : Env) : Env := { e with draws := e.draws + 1 }

/-- The next answer of the buffer allocator: a settled one, else a free value. -/
def nextAlloc (s : State) : Option BufAnswer × State :=
  match s.env.alloc with
  | a :: rest => (a, s.setEnv { s.env with alloc := rest })
  | [] => (Config.allocAnswer s.env.draws, s.setEnv (drawn s.env))

/-- The next answer of the DMA memory interface. -/
def nextDma (s : State) : Option Addr × State :=
  match s.env.dma with
  | a :: rest => (a, s.setEnv { s.env with dma := rest })
  | [] => (Config.dmaAnswer s.env.draws, s.setEnv (drawn s.env))

/-- The next answer of a hardware call. -/
def nextHw (s : State) : HwAnswer × State :=
  match s.env.hw with
  | a :: rest => (a, s.setEnv { s.env with hw := rest })
  | [] => (Config.hwAnswer s.env.draws, s.setEnv (drawn s.env))

/-- `HwReadLink()`: `none` is link down. It reports valid media only (93_implementation_defined.md U8): a free answer that
is none reads as down; a settled one is tested by its reader. -/
def hwReadLink (s : State) : Option Link × State :=
  match s.env.phy with
  | a :: rest => (a, s.setEnv { s.env with phy := rest })
  | [] => ((Config.phyAnswer s.env.draws).filter Link.valid, s.setEnv (drawn s.env))

/-- The memory of a buffer answered for a size. -/
def answerRegion (size : Nat) (a : BufAnswer) : Region := { base := a.phys, size := size + a.extra }

/-- An answer `BufAlloc(size)` can give (10_state.md R50, 20_memory.md R79, R86): a free aligned region. A buffer to be posted
or kept spare besides has exactly the size asked (43_buffer_pool.md R230) and does not stand at address 0, which in a free
descriptor means no buffer (30_encoding.md R109). -/
def bufAnswerFits (forRing : Bool) (size : Nat) (a : BufAnswer) (s : State) : Bool :=
  freeAmong s.cfg.bufAlign (takenRegions s) (answerRegion size a) && (!forRing || a.extra == 0 && a.phys != 0#64)

/-- A new buffer (10_state.md R50): a fresh identity, the room and the address answered. That its data length is 0 until a rule
sets it is the model's choice (DESIGN CHOICE, log entry 8). -/
def newBuf (size : Nat) (a : BufAnswer) (s : State) : Buf :=
  { id := s.env.nextBuf, cap := size + a.extra, phys := a.phys, len := 0, next := none }

/-- A buffer given out: its memory is live, and holds the bytes the answer brings. -/
def takeBuf (size : Nat) (a : BufAnswer) (s : State) : State :=
  let s1 := takeRegion (answerRegion size a) (s.setMem (writeBytes s.mem a.phys (a.fill.take (size + a.extra))))
  s1.setEnv { s1.env with nextBuf := s1.env.nextBuf + 1 }

/-- `BufAlloc(size)` (00_scope.md R8): a new buffer, or `none`; never waits (43_buffer_pool.md R231). An answer the allocator
cannot give reads as `none` (log entry 8). -/
def bufAlloc (forRing : Bool) (size : Nat) (s : State) : Option Buf × State :=
  match nextAlloc s with
  | (none, s1) => (none, s1)
  | (some a, s1) =>
    if bufAnswerFits forRing size a s1 then (some (newBuf size a s1), takeBuf size a s1) else (none, s1)

/-- `BufAlloc(RX_BUF_SIZE)` for a buffer to be posted or kept spare (43_buffer_pool.md R230). -/
def rxBufAlloc (s : State) : Option Buf × State := bufAlloc true s.cfg.rxBufSize s

/-- `BufFree(b)`: its life ends (10_state.md R50). -/
def bufFree (b : Buf) (s : State) : State := (dropRegion (bufRegion b) s).emit (.bufFree b)

/-- `DmaAlloc(size, RING_ALIGN)` and `PhysAddr` of its answer (00_scope.md R8, 20_memory.md R77): a free region of that size
and alignment, now live, or none. An answer the allocator cannot give reads as none (log entry 8). -/
def dmaAlloc (size : Nat) (s : State) : Option Addr × State :=
  match nextDma s with
  | (none, s1) => (none, s1)
  | (some p, s1) =>
    if freeAmong s1.cfg.ringAlign (takenRegions s1) { base := p, size := size } then
      (some p, takeRegion { base := p, size := size } s1)
    else (none, s1)

/-- A DMA region released. -/
def dmaFree (base : Addr) (size : Nat) (s : State) : State :=
  (dropRegion { base := base, size := size } s).emit (.dmaFree base size)

/-- What a hardware call does to the MAC when it is acknowledged (60_exceptions.md R246; 10_state.md R46, R54, R56). R54 and R56
list what a reset of the MAC clears; that the configuration of `HwMacConfigure` and the capability set of `HwSetAdvertise`, which
they do not list, survive it is the model's choice (DESIGN CHOICE, log entry 9). -/
def hwEffect (c : HwCall) (m : Mac) : Mac :=
  match c with
  | .macReset => { m with started := false, startedWith := none, regs := DeviceRegs.zero }
  | .macConfigure k => { m with conf := k }
  | .macStart p => { m with started := true, startedWith := p }
  | .setAdvertise a => { m with advertised := a }

/-- What a hardware call leaves when it times out: a reset leaves the device registers at values the spec does not state, but
for `IMR`, each bit of which it has cleared or left, so that a disabled interface has the mask 0 of 60_exceptions.md R267; any
other call leaves the MAC as it was (log entry 9). -/
def hwTimeout (c : HwCall) (after : DeviceRegs) (m : Mac) : Mac :=
  match c with
  | .macReset => { m with regs := { after with imr := m.regs.imr &&& after.imr } }
  | _ => m

/-- The posted doorbell writes stand before a reset of the MAC, which leaves the doorbells at 0 (10_state.md R54): DEDUCED, log
entry 11. Before any other call nothing says that they arrive. -/
def beforeCall (c : HwCall) (s : State) : State :=
  match c with
  | .macReset => reachAll s
  | .macConfigure _ => s
  | .macStart _ => s
  | .setAdvertise _ => s

/-- One hardware call: whether it answered `OK`, and the state after it (60_exceptions.md R246). -/
def hwCall (c : HwCall) (s : State) : Bool × State :=
  match nextHw (beforeCall c s) with
  | (.ok, s1) => (true, (s1.setMac (hwEffect c s1.mac)).emit (.hw c true))
  | (.timeout after, s1) => (false, (s1.setMac (hwTimeout c after s1.mac)).emit (.hw c false))

/-- Several hardware calls in order, the first timeout ending them: `A() = Timeout or B() = Timeout` of 60_exceptions.md R260. -/
def hwCalls : List HwCall → State → Bool × State
  | [], s => (true, s)
  | c :: rest, s =>
    match hwCall c s with
    | (true, s1) => hwCalls rest s1
    | (false, s1) => (false, s1)

/-- The argument list of `HwMacConfigure` (10_state.md R46). -/
def macConf (s : State) : MacConf :=
  { txPhys := s.tx.ringPhys, nTx := s.cfg.nTx, rrdPhys := s.rx.rrdPhys, nRrd := s.cfg.nRrd, rfdPhys := s.rx.rfdPhys,
    nRfd := s.cfg.nRfd, bufSize := s.cfg.rxBufSize }

/-- `ReleaseFrame(f)`: unmapped and returned to the STACK (40_rings.md R147, 41_transmit.md R180). -/
def releaseFrame (f : Frame) (sent : Bool) (s : State) : State := s.emit (.release f sent)

/-- Every frame of a list released unsent, in order. -/
def releaseAll : List Frame → State → State
  | [], s => s
  | f :: rest, s => releaseAll rest (releaseFrame f false s)

/-- `SignalQueueResumable()` (00_scope.md R8). -/
def signalResumable (s : State) : State := (s.setEnv { s.env with resumable := true }).emit .signalResumable

/-- `FlushInboundBatch()` (00_scope.md R8). -/
def flushInboundBatch (s : State) : State := s.emit .flushBatch

/-- `DequeueOutbound()` (00_scope.md R8). -/
def dequeueOutbound (s : State) : Option Frame × State :=
  match s.env.outbound with
  | [] => (none, s)
  | f :: rest => (some f, s.setEnv { s.env with outbound := rest })

/-- Another user of host memory stores bytes; the core's rings and buffers (20_memory.md R92) and the frames in flight (R94, R95;
70_reset_and_hazards.md R294) stay as they are. -/
def hostWrite (a : Addr) (bytes : List Byte) (s : State) : State :=
  if (keptRegions s).all (apart { base := a, size := bytes.length }) then s.setMem (writeBytes s.mem a bytes) else s

/-- The STACK frees a buffer it was given; what the core holds is not its to free (43_buffer_pool.md R229), nor is a frame in
flight (R294). -/
def bufReturn (r : Region) (s : State) : State :=
  if (coreRegions s).contains r || !(sentRegions s).all (apart r) then s else dropRegion r s

/-- A frame queued by the STACK (00_scope.md R8). -/
def offerFrame (f : Frame) (s : State) : State :=
  s.setEnv { s.env with outbound := s.env.outbound ++ [f], offered := true }

end Sys2Proof.Machine
end

