-- ==== Sys2Proof/Machine/Flags.lean ====
section
/-! DEFINITION. Every flag computation of the spec: the command-word flags of a transmit descriptor, the error and UPDATED
flags of a completion, the checksum-validity set, the interrupt mask values and line, the operating mode. -/

namespace Sys2Proof.Machine

/-! ### The checksum set (30_encoding.md R116) -/

/-- Bit 0, `CS_IP4`. -/
def csIp4 : BitVec 5 := 0x01#5
/-- Bit 1, `CS_TCP4`. -/
def csTcp4 : BitVec 5 := 0x02#5
/-- Bit 2, `CS_UDP4`. -/
def csUdp4 : BitVec 5 := 0x04#5
/-- Bit 3, `CS_TCP6`. -/
def csTcp6 : BitVec 5 := 0x08#5
/-- Bit 4, `CS_UDP6`. -/
def csUdp6 : BitVec 5 := 0x10#5

/-- A flag of the checksum set is present. -/
def csHas (req flag : BitVec 5) : Bool := (req &&& flag) != 0#5

/-! ### The transmit command word (30_encoding.md R102, R106, R107; 41_transmit.md R163, R164) -/

/-- `L4OFF` for an IPv4 based offload (R107). -/
def l4offV4 (c : Cfg) : Word := putField (BitVec.ofNat 32 c.minL4OffV4) c.layout.l4off

/-- `L4OFF` for an IPv6 based offload (R107). -/
def l4offV6 (c : Cfg) : Word := putField (BitVec.ofNat 32 c.minL4OffV6) c.layout.l4off

/-- `csum_cmd(req)`: the first row of the table of R164 whose flag is requested. -/
def csumCmd (c : Cfg) (req : BitVec 5) : Word :=
  if csHas req csTcp4 then
    bitWord c.layout.ipv4 ||| bitWord c.layout.tcpXsum ||| bitWord c.layout.ipXsum ||| l4offV4 c
  else if csHas req csUdp4 then
    bitWord c.layout.ipv4 ||| bitWord c.layout.udpXsum ||| bitWord c.layout.ipXsum ||| l4offV4 c
  else if csHas req csIp4 then
    bitWord c.layout.ipv4 ||| bitWord c.layout.ipXsum ||| l4offV4 c
  else if csHas req csTcp6 then
    bitWord c.layout.tcpXsum ||| l4offV6 c
  else if csHas req csUdp6 then
    bitWord c.layout.udpXsum ||| l4offV6 c
  else 0#32

/-- The MSS field (R106). -/
def mssField (c : Cfg) (mss : Half) : Word := putField (mss.setWidth 32) c.layout.mss

/-- `offload(f)` for each offload mode (R163); a segmentation request ignores the checksum request (R136). -/
def offloadCmd (c : Cfg) (f : Frame) : Word :=
  match f.tsoMode with
  | .none => csumCmd c f.csumReq
  | .tso4 => bitWord c.layout.ipv4 ||| bitWord c.layout.lsoEn ||| mssField c f.mss ||| l4offV4 c
  | .tso6 => bitWord c.layout.lsoEn ||| bitWord c.layout.lsoV2 ||| mssField c f.mss ||| l4offV6 c

/-- `vl(f)`: the VLAN-insert flag (R163). -/
def vlanCmd (c : Cfg) (f : Frame) : Word :=
  match f.vlan with
  | none => 0#32
  | some _ => bitWord c.layout.insVltag

/-- The command word of a frame's descriptors, without EOP (R163). -/
def frameCmd (c : Cfg) (f : Frame) : Word := offloadCmd c f ||| vlanCmd c f

/-- The end-of-packet flag, set on a frame's last descriptor only (41_transmit.md R172). -/
def eopFlag (c : Cfg) (last : Bool) : Word := if last then bitWord c.layout.eop else 0#32

/-- The VLAN field of every descriptor of a frame (41_transmit.md R165, 30_encoding.md R105). -/
def vlanField (c : Cfg) (v : Option Half) : Half :=
  match v with
  | none => 0#16
  | some t => if c.vlanSwap then swap16 t else t

/-! ### The completion descriptor (30_encoding.md R113 to R115; 42_receive.md R191, R196, R197) -/

/-- The UPDATED flag of a completion's last word (R113). -/
def isUpdated (c : Cfg) (w3 : Word) : Bool := wordBit w3 c.layout.updated

/-- `ERR_ALL` (R114). -/
def errAll (c : Cfg) : Word :=
  bitWord c.layout.errL4 ||| bitWord c.layout.errIpv4 ||| bitWord c.layout.errRes ||| bitWord c.layout.errFcs |||
  bitWord c.layout.errFae ||| bitWord c.layout.errTrunc ||| bitWord c.layout.errRunt ||| bitWord c.layout.errIcmp |||
  bitWord c.layout.errFifoFull ||| bitWord c.layout.errLen

/-- `csum_valid(pid, err)` (42_receive.md R196) over the protocol IDs of 30_encoding.md R115. -/
def csumValid (c : Cfg) (pid : BitVec 8) (err : Word) : BitVec 5 :=
  let ip4 := if wordBit err c.layout.errIpv4 then 0#5 else csIp4
  let l4 (flag : BitVec 5) := if wordBit err c.layout.errL4 then 0#5 else flag
  match pid.toNat with
  | 1 => ip4
  | 2 => l4 csTcp6
  | 3 => ip4 ||| l4 csTcp4
  | 4 => l4 csUdp6
  | 5 => ip4 ||| l4 csUdp4
  | _ => 0#5

/-- `vlan_meta(vl, vtag)` (42_receive.md R197). -/
def vlanMeta (c : Cfg) (vl : Bool) (vtag : Half) : Option Half :=
  if vl then some (if c.vlanSwap then swap16 vtag else vtag) else none

/-! ### Interrupt mask and line (30_encoding.md R121, 10_state.md R59) -/

/-- `IMR_DOWN` (R121). -/
def imrDown (c : Cfg) : Word := c.isr.link ||| c.isr.fatal ||| c.isr.alert

/-- `IMR_FULL` (R121). -/
def imrFull (c : Cfg) : Word := imrDown c ||| c.isr.tx ||| c.isr.rx

/-- A class of status bits has a bit set in a status word. -/
def hasBit (status mask : Word) : Bool := (status &&& mask) != 0#32

/-- The interrupt line is asserted while `(ISR & IMR) != 0` and `ISR.DIS = 0` (R59). -/
def irqAsserted (s : State) : Bool :=
  hasBit s.mac.regs.isr s.mac.regs.imr && !hasBit s.mac.regs.isr s.cfg.isr.dis

/-! ### Gates and modes (60_exceptions.md R267, 41_transmit.md R161, R181, 42_receive.md R201) -/

/-- The operating modes of R267. -/
inductive Mode where
  | disabled | down | up
  deriving DecidableEq, Repr

/-- The operating mode, a function of two flags (R267). -/
def mode (s : State) : Mode :=
  if s.flags.enabled then (if s.flags.linkUp then .up else .down) else .disabled

/-- The transmit gate is open (41_transmit.md R161). -/
def gateOpen (s : State) : Bool := s.flags.enabled && s.flags.linkUp

/-- `TX_WAKE_THRESHOLD = N_TX / 4` (00_scope.md R9). -/
def wakeThreshold (c : Cfg) : Nat := c.nTx / 4

/-- The stalled queue is to be woken (41_transmit.md R181). -/
def wakeDue (s : State) : Bool := s.tx.stalled && decide (s.tx.numFree.toInt > wakeThreshold s.cfg)

/-- `POLL_PARAMS(speed)`: the caller's cadence and thresholds; no rule depends on them (60_exceptions.md R255). The spec has a
row for each link speed and none for an unknown one, for which the 10 Mb row is the model's choice (DESIGN CHOICE, log
entry 18). -/
def pollParamsOf (c : Cfg) (v : Speed) : PollParams :=
  match v with
  | .s1000 => c.pollParams1000
  | .s100 => c.pollParams100
  | .s10 => c.pollParams10
  | .unknown => c.pollParams10

/-- The spare pool is below its low-water mark and no refill is pending (42_receive.md R201). -/
def refillDue (s : State) : Bool := decide (s.pool.spare.length < s.cfg.spareLowWater) && !s.pool.refillPending

/-- A watchdog tick sees no completion since the last one, and outstanding work (60_exceptions.md R262). -/
def tickStalled (s : State) : Bool :=
  s.tx.doneCount == s.wdt.lastDone && decide (s.tx.numFree.toInt < s.cfg.nTx)

end Sys2Proof.Machine
end

