-- ==== Sys2Proof/Machine/Operands.lean ====
section
/-! DEFINITION. Every operand form: the budget and medium immediates, a frame's segments and header bytes with the TSO
header fix-ups, the transmit descriptor's image, the decoded completion descriptor. -/

namespace Sys2Proof.Machine

/-! ### Immediates (30_encoding.md R131) -/

/-- A budget: `0xFFFFFF` is unbounded (`none`), any other value itself. -/
def budgetOf (b : BitVec 24) : Option Nat := if b = 0xFFFFFF#24 then none else some b.toNat

/-! ### Scatter-gather (41_transmit.md R166, R167) -/

/-- `SgMap(f, MAX_SEGS)`: `none` is `Fail`; a frame that cannot be brought to at most `MAX_SEGS` segments is a `Fail` (R166). A
list with an empty segment, which `SgMap` cannot give (20_memory.md R87), reads as a `Fail` (log entry 10). No address is tested:
any 64-bit value goes into a descriptor as it is (60_exceptions.md R272). -/
def sgMap (s : State) (f : Frame) : Option (List Seg) :=
  match f.segs with
  | none => none
  | some l => if decide (l.length ≤ s.cfg.maxSegs) && l.all (fun g => g.len != 0#16) then some l else none

/-- The descriptor budget: one per segment, one more for the context descriptor of an IPv6 TSO frame (R167). -/
def descNeed (m : TsoMode) (segs : List Seg) : Nat :=
  segs.length + (match m with
    | .tso6 => 1
    | _ => 0)

/-! ### Frame bytes (20_memory.md R74, 41_transmit.md R166) -/

/-- Where byte `off` of a frame stands in host memory: the segments hold its bytes in order (R166). -/
def frameAddr : List Seg → Nat → Option Addr
  | [], _ => none
  | g :: rest, off => if off < g.len.toNat then some (g.addr + BitVec.ofNat 64 off) else frameAddr rest (off - g.len.toNat)

/-- Byte `off` of a frame. -/
def frameByte (m : Memory) (segs : List Seg) (off : Nat) : Option Byte :=
  match frameAddr segs off with
  | none => none
  | some a => some (readByte m a)

/-- `NetRead16(f, off) = f.bytes[off] ++ f.bytes[off+1]` (R74). -/
def netRead16 (m : Memory) (segs : List Seg) (off : Nat) : Option Half :=
  match frameByte m segs off, frameByte m segs (off + 1) with
  | some hi, some lo => some (hi ++ lo)
  | _, _ => none

/-- `NetWrite16(f, off, v)` stores `v[15:8]` at `off` and `v[7:0]` at `off + 1` (R74). -/
def netWrite16 (m : Memory) (segs : List Seg) (off : Nat) (v : Half) : Option Memory :=
  match frameAddr segs off, frameAddr segs (off + 1) with
  | some hi, some lo => some (writeByte (writeByte m hi (v.extractLsb' 8 8)) lo (v.extractLsb' 0 8))
  | _, _ => none

/-! ### TSO header fix-ups (41_transmit.md R169 to R171) -/

/-- `fold(c, l)`: 32-bit wrapping subtraction and one carry fold (R171). -/
def fold (c l : Half) : Half :=
  let a : Word := c.setWidth 32 - l.setWidth 32
  (a + (a >>> 16)).setWidth 16

/-- Where the TCP checksum of an IPv4 frame stands, from the byte at offset 14 (R169). -/
def tso4CsumOff (b14 : Byte) : Nat := 14 + 4 * (b14 &&& 0x0F#8).toNat + 16

/-- `tso4_fix(f)`: the TCP checksum adjusted by the payload length (R169); `none` when the frame is shorter than the offsets it
touches. -/
def tso4Fix (m : Memory) (segs : List Seg) : Option Memory :=
  match frameByte m segs 14, netRead16 m segs 16 with
  | some b14, some tot =>
    match netRead16 m segs (tso4CsumOff b14) with
    | some sum => netWrite16 m segs (tso4CsumOff b14) (fold sum (tot - BitVec.ofNat 16 (4 * (b14 &&& 0x0F#8).toNat)))
    | none => none
  | _, _ => none

/-- The aggregate packet length of an IPv6 TSO frame: payload length plus the IPv6 minimum header offset (R170). -/
def tso6Total (c : Cfg) (plen : Half) : Word := plen.setWidth 32 + BitVec.ofNat 32 c.minL4OffV6

/-- `tso6_fix(f)`: the TCP checksum adjusted, the payload-length field zeroed, and the total length returned (R170). -/
def tso6Fix (c : Cfg) (m : Memory) (segs : List Seg) : Option (Memory × Word) :=
  match netRead16 m segs 18, netRead16 m segs (c.minL4OffV6 + 16) with
  | some plen, some sum =>
    match netWrite16 m segs (c.minL4OffV6 + 16) (fold sum plen) with
    | some m1 =>
      match netWrite16 m1 segs 18 0#16 with
      | some m2 => some (m2, tso6Total c plen)
      | none => none
    | none => none
  | _, _ => none

/-- The header fix-up an offload mode asks for: host memory after it and, for IPv6, the context descriptor's packet length. -/
def headerFix (c : Cfg) (mode : TsoMode) (m : Memory) (segs : List Seg) : Option (Memory × Option Word) :=
  match mode with
  | .none => some (m, none)
  | .tso4 =>
    match tso4Fix m segs with
    | some m1 => some (m1, none)
    | none => none
  | .tso6 =>
    match tso6Fix c m segs with
    | some (m1, total) => some (m1, some total)
    | none => none

/-- The offsets of the frame bytes a header fix-up rewrites (R169, R170). -/
def fixOffsets (c : Cfg) (mode : TsoMode) (m : Memory) (segs : List Seg) : List Nat :=
  match mode with
  | .none => []
  | .tso4 =>
    match frameByte m segs 14 with
    | none => []
    | some b14 => [tso4CsumOff b14, tso4CsumOff b14 + 1]
  | .tso6 => [18, 19, c.minL4OffV6 + 16, c.minL4OffV6 + 17]

/-- The addresses a header fix-up rewrites that are not the frame's own: each stands in what the core holds or in a frame in
flight (20_memory.md R92, R95). -/
def foreignHeader (s : State) (mode : TsoMode) (segs : List Seg) : List Addr :=
  ((fixOffsets s.cfg mode s.mem segs).filterMap (frameAddr segs)).filter fun a =>
    (keptRegions s).any fun r => inRange r.base r.size a

/-- A free value stored at each of some addresses, from the `n`-th on. -/
def storeFree (n : Nat) (m : Memory) : List Addr → Memory
  | [] => m
  | a :: l => storeFree (n + 1) (writeByte m a (Config.headerByte n)) l

/-- The header a fix-up has left, `m` being host memory after it. Core checks no address it is given (60_exceptions.md R272), so
the fix-up of a frame whose header stands in memory that is not its own is carried out like any other; but that memory is not
the core's to change (20_memory.md R92, R95), and no rule says what a store there leaves (R93), so that each byte of the header
there holds a free value, and every other byte what the fix-up stores (DESIGN CHOICE, log entry 23). -/
def storeHeader (mode : TsoMode) (segs : List Seg) (m : Memory) (s : State) : State :=
  (s.setMem (storeFree s.foreign m (foreignHeader s mode segs))).setForeign (s.foreign + (foreignHeader s mode segs).length)

/-- `f.mss` fits its field: `1 <= f.mss <= 8191` with the default layout (30_encoding.md R106). -/
def mssInRange (c : Cfg) (mss : Half) : Bool := decide (1 ≤ mss.toNat) && decide (mss.toNat < 2 ^ c.layout.mss.width)

/-! ### The transmit descriptor (30_encoding.md R101, 41_transmit.md R172) -/

/-- The fields both forms of a transmit descriptor share, written at `a`: length, VLAN tag, command word. -/
def writeTpdHead (l : Layout) (m : Memory) (a : Addr) (len vt : Half) (cmd : Word) : Memory :=
  store32 (store16 (store16 m (fieldAddr a l.tpdLen) len) (fieldAddr a l.tpdVlan) vt) (fieldAddr a l.tpdCmd) cmd

/-- A data descriptor written at `a`. -/
def writeData (l : Layout) (m : Memory) (a : Addr) (len vt : Half) (cmd : Word) (addr : Addr) : Memory :=
  store64 (writeTpdHead l m a len vt cmd) (fieldAddr a l.tpdAddr) addr

/-- A context descriptor written at `a`: `len` 0, the packet length in the low half of the address field, 0 in the high. -/
def writeContext (l : Layout) (m : Memory) (a : Addr) (vt : Half) (cmd total : Word) : Memory :=
  store32 (store32 (writeTpdHead l m a 0#16 vt cmd) (fieldAddr a l.tpdAddr) total) (fieldAddr a (l.tpdAddr + 4)) 0#32

/-! ### The completion descriptor (30_encoding.md R110 to R113, 42_receive.md R192) -/

/-- A completion descriptor as the walker decodes it. -/
structure Completion where
  /-- `PKTLEN`, CRC trailer included -/
  len : Nat
  /-- `NOR` -/
  count : Nat
  /-- `SI & RFD_MASK` -/
  start : Half
  pid : BitVec 8
  err : Word
  tagged : Bool
  vtag : Half
  deriving DecidableEq, Repr

/-- `decode(w0, w2, w3)` (R192). -/
def decodeCompletion (c : Cfg) (w0 w2 w3 : Word) : Completion where
  len := (getField w3 c.layout.pktlen).toNat
  count := (getField w0 c.layout.nor).toNat
  start := BitVec.ofNat 16 ((getField w0 c.layout.si).toNat &&& (c.nRfd - 1))
  pid := (getField w2 c.layout.pid).setWidth 8
  err := w3 &&& errAll c
  tagged := wordBit w3 c.layout.vltagged
  vtag := (getField w2 c.layout.vltag).setWidth 16

/-- The completion descriptor at an address of host memory, decoded; `w1` is never read (30_encoding.md R111). -/
def readCompletion (c : Cfg) (m : Memory) (a : Addr) : Completion :=
  decodeCompletion c (load32 m (fieldAddr a c.layout.rrdW0)) (load32 m (fieldAddr a c.layout.rrdW2))
    (load32 m (fieldAddr a c.layout.rrdW3))

/-- The address of the completion descriptor the walker examines next. -/
def rrdAddr (s : State) : Addr := rrdSlotAddr s.cfg s.rx.rrdPhys s.rx.next

/-- The address of the word of that descriptor that holds UPDATED. -/
def rrdFlagAddr (s : State) : Addr := fieldAddr (rrdAddr s) s.cfg.layout.rrdW3

/-- That word. -/
def rrdFlagWord (s : State) : Word := load32 s.mem (rrdFlagAddr s)

/-- That descriptor decoded. -/
def rrdCompletion (s : State) : Completion := readCompletion s.cfg s.mem (rrdAddr s)

end Sys2Proof.Machine
end

