-- ==== Sys2Proof/Machine/Mac.lean ====
section
/-! DEFINITION. The MAC agent's steps (10_state.md R56 to R60). -/

namespace Sys2Proof.Machine

/-- Bits set in `ISR` by the MAC; the DIS bit is the core's (10_state.md R44, R59). -/
def setStatus (mask : Word) (s : State) : State :=
  s.setMac { s.mac with regs := { s.mac.regs with isr := s.mac.regs.isr ||| (mask &&& ~~~s.cfg.isr.dis) } }

/-- The transmit slot `i` is in flight: published and not reclaimed (R47). -/
def slotInFlight (i : Half) (s : State) : Bool :=
  decide (dist s.tx.dirty i s.mac.conf.nTx < dist s.tx.dirty s.tx.next s.mac.conf.nTx)

/-- The MAC may fetch a transmit descriptor: started, and its index has not reached the doorbell as it sees it (R57). Whatever a
reset that timed out has left in its registers, its index is inside the ring (R56), and it touches no packet that no descriptor in
flight refers to (R60). -/
def macTxReady (s : State) : Bool :=
  s.mac.started && s.mac.regs.txCons != bellSeen .tx s && decide (s.mac.regs.txCons.toNat < s.mac.conf.nTx) &&
    slotInFlight s.mac.regs.txCons s

/-- The bytes of host memory a transmit descriptor at `a` names: `len` bytes at its address field when it is a data
descriptor, none when it is a context descriptor (R57). No bit tells the two forms apart (30_encoding.md R103); the length does,
1 to 65535 in a data descriptor and 0 in a context descriptor (R101, R104). -/
def fetchedData (l : Layout) (m : Memory) (a : Addr) : List Byte :=
  readBytes m (load64 m (fieldAddr a l.tpdAddr)) (load16 m (fieldAddr a l.tpdLen)).toNat

/-- What one transmit step reads at a slot: the descriptor, and the data it names (R57). -/
def macFetchAct (slot : Half) (s : State) : Act :=
  let a := tpdSlotAddr s.cfg s.mac.conf.txPhys slot
  .macFetch slot (readBytes (macView s) a s.cfg.layout.tpdSize) (fetchedData s.cfg.layout (macView s) a)

/-- One transmit step: the descriptor at `M.txCons` and its data fetched and the index advanced (R57). -/
def macTxOne (s : State) : State :=
  (s.setMac { s.mac with regs := { s.mac.regs with txCons := inc s.mac.regs.txCons 1 s.mac.conf.nTx } }).emit
    (macFetchAct s.mac.regs.txCons s)

/-- Up to `k` transmit steps; the MAC never passes the doorbell that has reached it (R57; 20_memory.md R91). -/
def macTx : Nat → State → State
  | 0, s => s
  | k + 1, s => if macTxReady s then macTx k (macTxOne s) else s

/-- How many receive buffers a frame of `len` bytes needs (R58). -/
def buffersFor (len size : Nat) : Nat := (len + size - 1) / size

/-- Where the MAC puts the `j`-th part of a frame: the address its next free descriptors hold, as it sees them (R58 step 1). -/
def rxTarget (s : State) (j : Nat) : Addr :=
  load64 (macView s) (rfdFieldAddr s.cfg s.mac.conf.rfdPhys (inc s.mac.regs.rfdCons j s.mac.conf.nRfd))

/-- The memory of the `j`-th part of a frame of `len` bytes: a full buffer, or the rest. -/
def rxPart (s : State) (len j : Nat) : Region :=
  { base := rxTarget s j, size := min s.mac.conf.bufSize (len - j * s.mac.conf.bufSize) }

/-- The address of the completion descriptor the MAC writes next. -/
def macRrdAddr (s : State) : Addr := rrdSlotAddr s.cfg s.mac.conf.rrdPhys s.mac.regs.rrdProd

/-- How many free descriptors the MAC sees offered (R43, R58; 20_memory.md R91). -/
def rxWindow (s : State) : Nat := dist s.mac.regs.rfdCons (bellSeen .rx s) s.mac.conf.nRfd

/-- The buffers posted in the MAC's window (R43, R58). -/
def windowBufs (s : State) : List Buf :=
  (List.range (rxWindow s)).filterMap fun j =>
    s.rx.mbuf.getD (inc s.mac.regs.rfdCons j s.mac.conf.nRfd).toNat none

/-- Every part of a frame goes into a buffer posted in the window: the MAC touches no other, whatever its free descriptors read
as to it (R60). -/
def targetsPosted (len : Nat) (s : State) : Bool :=
  (List.range (buffersFor len s.mac.conf.bufSize)).all fun j =>
    (windowBufs s).any fun b => within (rxPart s len j) (bufRegion b)

/-- The receive indices are inside their rings (R56), whatever a reset that timed out has left there: the MAC writes no other
descriptor (R60). -/
def rxIndicesInside (s : State) : Bool :=
  decide (s.mac.regs.rfdCons.toNat < s.mac.conf.nRfd) && decide (s.mac.regs.rrdProd.toNat < s.mac.conf.nRrd)

/-- The MAC can complete a frame of `len` bytes: started, the length in bounds, enough offered buffers, its next completion
descriptor not UPDATED as it sees it (R58), and buffers and a descriptor it may touch (R60). A cleared UPDATED that has not
reached the MAC yet (20_memory.md R88) shows as a frame lost: a receive step that is not taken. -/
def macRxReady (len : Nat) (s : State) : Bool :=
  let k := s.mac.conf
  let n := buffersFor len k.bufSize
  s.mac.started && decide (s.cfg.crcLen ≤ len) && decide (len ≤ 16383) && decide (1 ≤ n) && decide (n ≤ 15) &&
  decide (n ≤ rxWindow s) && !isUpdated s.cfg (load32 (macView s) (fieldAddr (macRrdAddr s) s.cfg.layout.rrdW3)) &&
  rxIndicesInside s && targetsPosted len s

/-- The frame's bytes written to the posted buffers in slot order, each full but the last; the addresses are read from the
free ring as it stood before the fill (R58 steps 1, 2). -/
def macFill (c : Cfg) (ring : Memory) (k : MacConf) : Nat → Half → List Byte → Memory → Memory
  | 0, _, _, m => m
  | n + 1, slot, bytes, m =>
    macFill c ring k n (inc slot 1 k.nRfd) (bytes.drop k.bufSize)
      (writeBytes m (load64 ring (rfdFieldAddr c k.rfdPhys slot)) (bytes.take k.bufSize))

/-- The bits of `w` outside a field. -/
def clearField (w : Word) (f : Field) : Word := w &&& ~~~putField (lowMask f.width) f

/-- The VLTAG field of a completion: the tag the MAC stripped, and for an untagged frame, where 30_encoding.md R112 calls the
field not valid and names no value, whatever the MAC step brings (log entry 20). -/
def tagField (l : Layout) (info : RxMeta) : Word :=
  match info.vlan with
  | some t => t.setWidth 32
  | none => getField info.ignored2 l.vltag

/-- The four words of a completion descriptor, UPDATED still 0 (R58 step 3): the reported fields over the ignored bits. -/
def completionWords (c : Cfg) (len n : Nat) (start : Half) (info : RxMeta) : Word × Word × Word × Word :=
  let l := c.layout
  let w0 := clearField (clearField info.ignored0 l.nor) l.si ||| putField (BitVec.ofNat 32 n) l.nor |||
    putField (start.setWidth 32) l.si
  let w2 := clearField (clearField info.ignored2 l.vltag) l.pid ||| putField (tagField l info) l.vltag |||
    putField (info.pid.setWidth 32) l.pid
  let w3 := (clearField info.ignored3 l.pktlen &&& ~~~errAll c &&& ~~~bitWord l.vltagged &&& ~~~bitWord l.updated) |||
    putField (BitVec.ofNat 32 len) l.pktlen ||| (info.err &&& errAll c) |||
    (if info.vlan.isSome then bitWord l.vltagged else 0#32)
  (w0, info.ignored1, w2, w3)

/-- The completion descriptor written: every field but UPDATED, then UPDATED (R58 steps 3, 4). -/
def writeCompletion (c : Cfg) (m : Memory) (a : Addr) (len n : Nat) (start : Half) (info : RxMeta) : Memory :=
  let (w0, w1, w2, w3) := completionWords c len n start info
  let l := c.layout
  let m1 := store32 (store32 (store32 (store32 m (fieldAddr a l.rrdW0) w0) (fieldAddr a l.rrdW1) w1) (fieldAddr a l.rrdW2) w2)
    (fieldAddr a l.rrdW3) w3
  store32 m1 (fieldAddr a l.rrdW3) (w3 ||| bitWord l.updated)

/-- There is an older store to the same descriptor among these. -/
def hasOlder (e : LateStore) (older : List LateStore) : Bool := older.any fun d => d.base == e.base

/-- What stands before the oldest late store to the descriptor at `a` becomes what `m` holds there. -/
def underOldest (m : Memory) (a : Addr) : List LateStore → List LateStore
  | [] => []
  | e :: rest =>
    (if e.base = a && !hasOlder e rest then { e with seen := readBytes m a e.seen.length } else e) :: underOldest m a rest

/-- The completion of a frame of `len` bytes in `n` buffers stored at `M.rrdProd` (R58 steps 3, 4). Where the core's zeroing of
that descriptor is late, the MAC's stores come before it: the MAC sees them until it arrives, and the core never does
(20_memory.md R88). -/
def complete (len n : Nat) (info : RxMeta) (s : State) : State :=
  let a := macRrdAddr s
  if isLate a s then s.setLate (underOldest (writeCompletion s.cfg (macView s) a len n s.mac.regs.rfdCons info) a s.late)
  else s.setMem (writeCompletion s.cfg s.mem a len n s.mac.regs.rfdCons info)

/-- One receive step that is enabled (R58 steps 1 to 5). -/
def macRxOne (bytes : List Byte) (info : RxMeta) (s : State) : State :=
  let k := s.mac.conf
  let r := s.mac.regs
  let n := buffersFor bytes.length k.bufSize
  (complete bytes.length n info (s.setMem (macFill s.cfg (macView s) k n r.rfdCons bytes s.mem))).setMac
    { s.mac with regs := { r with rfdCons := inc r.rfdCons n k.nRfd, rrdProd := inc r.rrdProd 1 k.nRrd } }

/-- The late stores without, for each descriptor that begins in a region, the oldest one to it. -/
def dropOldest (r : Region) : List LateStore → List LateStore
  | [] => []
  | e :: rest => if inRange r.base r.size e.base && !hasOlder e rest then dropOldest r rest else e :: dropOldest r rest

/-- Of each descriptor that begins in a region the oldest late store reaches the MAC (20_memory.md R88). -/
def arrive (r : Region) (s : State) : State := s.setLate (dropOldest r s.late)

/-- One step of the MAC agent. Status bits are set at any time (R59), of a MAC that is not started too and after `DEV.DISABLE`,
where 93_implementation_defined.md U9 has the MAC take no step; the model reads U9 as speaking of host memory (DESIGN CHOICE, log
entry 22). A frame for which the window or the completion slot is not available is lost inside the MAC and nothing is written
(R58). -/
def macStep (m : MacStep) (s : State) : State :=
  match m with
  | .txDone k irq => if irq then setStatus s.cfg.isr.tx (macTx k s) else macTx k s
  | .rx bytes info irq =>
    if macRxReady bytes.length s then
      if irq then setStatus s.cfg.isr.rx (macRxOne bytes info s) else macRxOne bytes info s
    else s
  | .status mask => setStatus mask s
  | .arrive r => arrive r s
  | .reach n => reach n s

end Sys2Proof.Machine
end

