-- ==== Sys2Proof/Machine/Enqueue.lean ====
section
/-! DEFINITION. The steps the three enqueue operations share (41_transmit.md R161 to R173). -/

namespace Sys2Proof.Machine

/-! ### The shared steps of an enqueue (41_transmit.md R161 to R173) -/

/-- A frame dropped: the event raised, the frame released, the result given (R161, R166). -/
def dropFrame (e : CoreEvent) (r : Result) (f : Frame) (s : State) : State :=
  (releaseFrame f false (raise e s)).setResult r

/-- A frame refused for lack of room: unmapped, the stall flagged and counted, the frame left with the caller (R168). -/
def stallFrame (f : Frame) (s : State) : State :=
  let s1 := s.emit (.sgUnmap f)
  (raise .txStall (s1.setTx { s1.tx with stalled := true })).setResult .stall

/-- `AtomicAdd(S.txNumFree, d)` (20_memory.md R85). -/
def addFree (d : Word) (s : State) : State := s.setTx { s.tx with numFree := s.tx.numFree + d }

/-- Reserving `need` descriptors would leave fewer than the safety margin; the comparison is over integers (R168). -/
def lacksRoom (need : Nat) (s : State) : Bool :=
  decide (s.tx.numFree.toInt - need < s.cfg.txSafetyMargin)

/-- One tracking entry replaced. -/
def setTxMbuf (i : Half) (v : Option Frame) (s : State) : State :=
  s.setTx { s.tx with mbuf := s.tx.mbuf.set i.toNat v }

/-- The context descriptor of an IPv6 TSO frame at slot `i` (R172). -/
def fillContext (vt : Half) (cmd total : Word) (i : Half) (s : State) : State :=
  setTxMbuf i none (s.setMem (writeContext s.cfg.layout s.mem (tpdSlotAddr s.cfg s.tx.ringPhys i) vt cmd total))

/-- One data descriptor at slot `i`; the last one carries EOP and the frame (R172). -/
def fillOne (f : Frame) (vt : Half) (cmd : Word) (g : Seg) (last : Bool) (i : Half) (s : State) : State :=
  setTxMbuf i (if last then some f else none)
    (s.setMem (writeData s.cfg.layout s.mem (tpdSlotAddr s.cfg s.tx.ringPhys i) g.len vt (cmd ||| eopFlag s.cfg last) g.addr))

/-- The data descriptors of a frame from slot `i` on: the state after them and the slot that follows (R172). -/
def fillData (f : Frame) (vt : Half) (cmd : Word) : List Seg → Half → State → Half × State
  | [], i, s => (i, s)
  | g :: rest, i, s => fillData f vt cmd rest (inc i 1 s.cfg.nTx) (fillOne f vt cmd g rest.isEmpty i s)

/-- `fill(f, segs, cmd, vt, ctx)` (R172). -/
def fill (f : Frame) (segs : List Seg) (cmd : Word) (vt : Half) (ctx : Option Word) (s : State) : Half × State :=
  match ctx with
  | none => fillData f vt cmd segs s.tx.next s
  | some total =>
    fillData f vt cmd segs (inc s.tx.next 1 s.cfg.nTx) (fillContext vt cmd total s.tx.next s)

/-- `publish(i)`: the producer index advanced, the fence, the doorbell (R173). -/
def publish (i : Half) (s : State) : State :=
  (regWrite .tpdPidx (i.setWidth 32) (fence (s.setTx { s.tx with next := i }))).setResult .sent

/-- Fill and publish. -/
def fillPublish (f : Frame) (segs : List Seg) (ctx : Option Word) (s : State) : State :=
  let p := fill f segs (frameCmd s.cfg f) (vlanField s.cfg f.vlan) ctx s
  publish p.1 p.2

/-- What an enqueue does once its descriptors are reserved: the header fix-up, the fill, the publish (R169 to R173). -/
def enqueueReserved (m : TsoMode) (f : Frame) (segs : List Seg) (s : State) : Out :=
  if aligned8 s.tx.ringPhys then
    match headerFix s.cfg m s.mem segs with
    | none => .refused .frameTooShort
    | some (m1, ctx) => .next (fillPublish f segs ctx (storeHeader m segs m1 s))
  else .refused .misaligned

/-- What a frame must be for an operation of its offload mode (R162, R175, R176): else outside the model (U6, U14). -/
def frameProblem (c : Cfg) (m : TsoMode) (f : Frame) : Option Refusal :=
  if f.tsoMode ≠ m then some .wrongOffload
  else if m ≠ .none && !mssInRange c f.mss then some .mssOutOfRange
  else none

/-- A transmit enqueue (R174 to R176). `roomTest` is off when `TX.PULL` invokes it, which made its own test (R168, R177). -/
def enqueue (m : TsoMode) (roomTest : Bool) (f : Frame) (s : State) : Out :=
  match frameProblem s.cfg m f with
  | some p => .refused p
  | none =>
    if !gateOpen s then .next (dropFrame .txDropGate .droppedGate f s)
    else
      match sgMap s f with
      | none => .next (dropFrame .txResource .droppedResource f s)
      | some [] => .next (dropFrame .txResource .droppedResource f s)
      | some (g :: rest) =>
        let need := descNeed m (g :: rest)
        if roomTest && lacksRoom need s then .next (stallFrame f s)
        else enqueueReserved m f (g :: rest) (addFree (-BitVec.ofNat 32 need) s)

/-- `TX.SEND f` (30_encoding.md R134): the enqueue its `tsoMode` classifies it to (41_transmit.md R162). -/
def txSend (roomTest : Bool) (f : Frame) (s : State) : Out := enqueue f.tsoMode roomTest f s

end Sys2Proof.Machine
end

