-- ==== Sys2Proof/Machine/Pull.lean ====
section
/-! DEFINITION. The PULLER: the accesses of `TX.PULL` one by one (41_transmit.md R177), between which other agents and, in the
pull model, the operations of the serialized context may come (R183; 60_exceptions.md R273; 70_reset_and_hazards.md R301). -/

namespace Sys2Proof.Machine

/-- The PULLER has something to do: a frame was queued since `TX.PULL` last began and the STACK still has frames queued, or it
has been signalled resumable (41_transmit.md R177). A frame left queued by a stall starts nothing by itself
(70_reset_and_hazards.md R296). -/
def pullDue (s : State) : Bool :=
  s.cfg.txSched == .pull && (s.env.resumable || s.env.offered && !s.env.outbound.isEmpty)

/-- A `TX.PULL` is in progress. -/
def pulling (s : State) : Bool := s.puller != .idle

/-- `TX.PULL` begins: it answers every signal and every frame queued so far. -/
def beginPull (s : State) : State :=
  (s.setEnv { s.env with resumable := false, offered := false }).setPuller .looping

/-- The room `TX.PULL` saw is below `PULL_RESERVE` (R177). -/
def belowReserve (free : Word) (c : Cfg) : Bool := decide (free.toInt < c.pullReserve)

/-- The next frame taken off the queue, if there is one: a frame once dequeued cannot be put back (R177). -/
def pullNext (s : State) : State :=
  match dequeueOutbound s with
  | (none, s1) => s1.setPuller .idle
  | (some f, s1) => s1.setPuller (.holds f)

/-- A frame sent for `TX.PULL`. The result of the enqueue goes to the loop, and to no caller. -/
def pullSend (f : Frame) (s : State) : Out :=
  andThen (txSend false f s) fun s1 => .next ((s1.setResult s.result).setPuller .looping)

/-- The next access of a `TX.PULL` in progress (R177): the free counter read, the stall flagged or a frame dequeued, the frame
sent. -/
def pullStep (s : State) : Out :=
  match s.puller with
  | .idle => .next s
  | .looping => .next (s.setPuller (.saw s.tx.numFree))
  | .saw free =>
    .next (if belowReserve free s.cfg then (s.setTx { s.tx with stalled := true }).setPuller .idle else pullNext s)
  | .holds f => pullSend f s

/-- A step of the PULLER agent: a `TX.PULL` begins or goes on. In the push model `TX.PULL` is an operation of the serialized
context like any other, and no agent runs it (R183). -/
def pullTurn (s : State) : Out :=
  match s.cfg.txSched with
  | .push => .next s
  | .pull => if pulling s then pullStep s else .next (if pullDue s then beginPull s else s)

end Sys2Proof.Machine
end

