-- ==== Sys2Proof/Machine/Points.lean ====
section
/-! DEFINITION. The points of an operation at which other agents may step (00_scope.md R17). -/

namespace Sys2Proof.Machine

/-- A step of the PULLER inside another operation. One on a frame outside the model (41_transmit.md R162, U6, U7, U13) is left for
the PULLER's own step, which says so. -/
def pullInside (s : State) : State :=
  match pullTurn s with
  | .next t => t
  | .fault _ => s
  | .refused _ => s

/-- A step of another agent inside an operation: the MAC's, the PULLER's, or the STACK's own doings. No second operation of the
serialized context runs there (70_reset_and_hazards.md R301). -/
def midStep (m : MidStep) (s : State) : State :=
  match m with
  | .mac m => macStep m s
  | .pull => pullInside s
  | .offer f => offerFrame f s
  | .hostWrite a bytes => hostWrite a bytes s
  | .bufReturn r => bufReturn r s

/-- What other agents do at one interleaving point, in order. -/
def macSteps : List MidStep → State → State
  | [], s => s
  | m :: rest, s => macSteps rest (midStep m s)

/-- What the environment still holds for the points after this one. -/
def dropPoint (s : State) : State := s.setEnv { s.env with during := s.env.during.tail }

/-- An interleaving point of an operation: other agents take the steps the environment has for it (R17). -/
def macPoint (s : State) : State := macSteps (s.env.during.headD []) (dropPoint s)

/-- How many steps of other agents the environment still holds for the points to come. -/
def pendingSteps (s : State) : Nat := (s.env.during.map List.length).sum

/-- `flush_outbound()` with `n` bounding its turns: a frame dequeued and released, until there is none (60_exceptions.md R258).
The PULLER may take frames off the same queue. -/
def flushLoop : Nat → State → State
  | 0, s => s
  | n + 1, s =>
    match dequeueOutbound s with
    | (none, s1) => s1
    | (some f, s1) => flushLoop n (macPoint (releaseFrame f false s1))

/-- `flush_outbound()` (60_exceptions.md R258). No more frames are there than are queued now and will be queued meanwhile. -/
def flushOutbound (s : State) : State := flushLoop (s.env.outbound.length + pendingSteps s) s

end Sys2Proof.Machine
end

