-- ==== Sys2Proof/Machine/Receive.lean ====
section
/-! DEFINITION. The receive family: buffer acquisition and chain assembly (43_buffer_pool.md R220 to R227), the completion
walker `RX.DRAIN` (42_receive.md R190 to R204) and `POOL.REFILL` (43_buffer_pool.md R232). -/

namespace Sys2Proof.Machine

/-! ### acquire: one slot, four tiers (43_buffer_pool.md R220 to R224) -/

/-- The buffer the tracking array holds at a slot. -/
def postedBuf (s : State) (slot : Half) : Option Buf := s.rx.mbuf.getD slot.toNat none

/-- A buffer posted at a slot: its address in the free descriptor and its reference in the tracking array, in one step
(R221, 10_state.md R34). -/
def post (slot : Half) (b : Buf) (s : State) : State :=
  (s.setMem (store64 s.mem (rfdFieldAddr s.cfg s.rx.rfdPhys slot) b.phys)).setRx
    { s.rx with mbuf := s.rx.mbuf.set slot.toNat (some b) }

/-- The first `d` bytes of `b` copied into `c`. -/
def copyInto (c b : Buf) (d : Nat) (s : State) : State := s.setMem (memCopy s.mem c.phys b.phys d)

/-- Tiers 3 and 4: a spare buffer, or the loss of the frame (R223, R224). -/
def acquireSpare (slot : Half) (d : Nat) (b : Buf) (s : State) : Option Buf × State :=
  match s.pool.spare with
  | [] => (none, s)
  | p :: rest =>
    let s1 := s.setPool { s.pool with spare := rest }
    match s.cfg.spareMode with
    | .copyIntoSpare => (some { p with len := d }, copyInto p b d s1)
    | .swapInSpare => (some { b with len := d }, post slot p s1)

/-- `acquire(s, d)` on the buffer `b` posted at the slot: tiers 1 and 2, then the others (R220 to R222). The buffer of tier 2
is one of at least `d` bytes (10_state.md R50). -/
def acquire (slot : Half) (d : Nat) (b : Buf) (s : State) : Option Buf × State :=
  match rxBufAlloc s with
  | (some r, s1) => (some { b with len := d }, post slot r s1)
  | (none, s1) =>
    match bufAlloc false d s1 with
    | (some c, s2) => (some { c with len := d }, copyInto c b d s2)
    | (none, s2) => acquireSpare slot d b s2

/-! ### assemble: single buffer and jumbo chain (43_buffer_pool.md R225 to R227) -/

/-- What assembling a frame gives: a chain to deliver, or the frame lost, or a slot with no buffer posted. -/
inductive Assembled where
  | chain (l : List Buf) (s : State)
  | lost (s : State)
  | unposted

/-- Every buffer of a partial chain freed (R227). -/
def freeAll : List Buf → State → State
  | [], s => s
  | b :: rest, s => freeAll rest (bufFree b s)

/-- The loop of R225 over the `n` slots from `slot` on; `got` is the chain so far, in order. A slot that held only CRC bytes
keeps its buffer. Where no slot holds data (`PKTLEN = CRC_LEN` with `RX_BUF_SIZE < CRC_LEN`) R225 names no head of the chain;
that the empty chain is delivered and counted is the model's choice (DESIGN CHOICE, log entry 15). -/
def assembleLoop : Nat → Half → Nat → List Buf → State → Assembled
  | 0, _, _, got, s => .chain got s
  | n + 1, slot, left, got, s =>
    let d := min left s.cfg.rxBufSize
    if d = 0 then assembleLoop n (inc slot 1 s.cfg.nRfd) (left - d) got s
    else
      match postedBuf s slot with
      | none => .unposted
      | some b =>
        match acquire slot d b s with
        | (some r, s1) => assembleLoop n (inc slot 1 s1.cfg.nRfd) (left - d) (got ++ [r]) s1
        | (none, s1) => .lost (freeAll got s1)

/-- `assemble(si, n, pktLen)` (R225): one slot through `acquire` for `n = 1`, else the loop. -/
def assemble (start : Half) (n pktLen : Nat) (s : State) : Assembled :=
  if n = 1 then
    match postedBuf s start with
    | none => .unposted
    | some b =>
      match acquire start pktLen b s with
      | (some r, s1) => .chain [r] s1
      | (none, s1) => .lost s1
  else assembleLoop n start pktLen [] s

/-- The `next` links of a chain: each buffer names the one after it (10_state.md R50). -/
def linkChain : List Buf → List Buf
  | [] => []
  | [b] => [{ b with next := none }]
  | b :: c :: rest => { b with next := some c.id } :: linkChain (c :: rest)

/-! ### RX.DRAIN (42_receive.md R190 to R201) -/

/-- The result of an operation read as a number of frames. -/
def countOf (r : Result) : Nat :=
  match r with
  | .count n => n
  | _ => 0

/-- The budget a caller passes leaves the walker unbounded. -/
def isInf (budget : Option Nat) : Bool := budget.isNone

/-- `EnqueueInbound` of an assembled frame, counted (R190, R198). -/
def deliver (k : Completion) (l : List Buf) (s : State) : State :=
  let s1 := s.emit (.inbound (linkChain l) (k.len - s.cfg.crcLen) (csumValid s.cfg k.pid k.err)
    (vlanMeta s.cfg k.tagged k.vtag))
  (s1.setStats { s1.stats with rxDelivered := s1.stats.rxDelivered + 1 }).setResult (.count (countOf s1.result + 1))

/-- A completion the MAC contract excludes (42_receive.md R192; 93_implementation_defined.md U1, U2, U4). -/
def contractProblem (k : Completion) (s : State) : Option Refusal :=
  if k.count = 0 then some .completionCountZero
  else if k.start ≠ s.rx.free then some .completionStartIndex
  else if k.len < s.cfg.crcLen then some .completionTooShort
  else none

/-- The completion's length fits its buffers and needs them all (U5, 10_state.md R58). -/
def fits (k : Completion) (c : Cfg) : Bool :=
  decide (k.len ≤ k.count * c.rxBufSize) && decide ((k.count - 1) * c.rxBufSize < k.len)

/-- The recycle step (R199): UPDATED cleared and every other bit of the word kept, both cursors advanced, the fence, the
doorbell with the last slot consumed. -/
def recycle (k : Completion) (w3 : Word) (s : State) : State :=
  let s1 := s.setMem (store32 s.mem (rrdFlagAddr s) (w3 &&& ~~~bitWord s.cfg.layout.updated))
  let s2 := s1.setRx { s1.rx with next := inc s1.rx.next 1 s1.cfg.nRrd, free := inc k.start k.count s1.cfg.nRfd }
  regWrite .rfdPidx ((inc k.start (k.count - 1) s2.cfg.nRfd).setWidth 32) (fence s2)

/-- What becomes of a completed frame before its descriptor is recycled (R193 to R198). -/
def judge (k : Completion) (s : State) : Out :=
  if 1 < k.count ∧ s.cfg.jumboSupport = false then .next (raise .rxLength s)
  else if k.err &&& s.cfg.rxDropMask ≠ 0#32 then .next (raise .rxError s)
  else if fits k s.cfg then
    match assemble k.start k.count (k.len - s.cfg.crcLen) s with
    | .chain l s1 => .next (deliver k l s1)
    | .lost s1 => .next (raise .rxResource s1)
    | .unposted => .fault .noBufferPosted
  else .refused .completionMisfit

/-- One completion processed: decoded, judged, recycled (R190). -/
def drainOne (s : State) : Out :=
  match contractProblem (rrdCompletion s) s with
  | some p => .refused p
  | none =>
    andThen (judge (rrdCompletion s) s) fun s1 => .next (recycle (rrdCompletion s) (rrdFlagWord s) s1)

/-- The loop of R190, `n` bounding its turns; before each look at a descriptor the MAC may step. -/
def drainLoop : Nat → State → Out
  | 0, s => .next s
  | n + 1, s =>
    let s1 := macPoint s
    if isUpdated s1.cfg (rrdFlagWord s1) then andThen (drainOne s1) (drainLoop n) else .next s1

/-- How many turns a budget allows; for an unbounded one, more than there are descriptors to meet (R200). -/
def drainTurns (budget : Option Nat) (s : State) : Nat :=
  match budget with
  | some n => n
  | none => s.cfg.nRrd + pendingSteps s + 1

/-- `refill_check()` (R201). -/
def refillCheck (s : State) : State :=
  if refillDue s then (s.setPool { s.pool with refillPending := true }).emit .refillScheduled else s

/-- The next descriptor is ready, or a running MAC that never stops will make it so (70_reset_and_hazards.md R298). -/
def moreToCome (s : State) : Bool := isUpdated s.cfg (rrdFlagWord s) || s.env.ceaseless && s.mac.started

/-- The end of a drain: an unbounded walk for which more is to come does not end (93_implementation_defined.md U22). -/
def drainEnd (budget : Option Nat) (s : State) : Out :=
  if isInf budget && moreToCome s then .fault .drainUnbounded else .next (refillCheck s)

/-- `RX.DRAIN budget` where its precondition holds; its result is the number of frames delivered (R190). -/
def drain (budget : Option Nat) (s : State) : Out :=
  if aligned8 s.rx.rrdPhys && aligned8 s.rx.rfdPhys then
    andThen (drainLoop (drainTurns budget s) (s.setResult (.count 0))) (drainEnd budget)
  else .refused .misaligned

/-- `RX.DRAIN`: refused while disabled (60_exceptions.md R270). -/
def drainIfEnabled (budget : Option Nat) (s : State) : Out :=
  if s.flags.enabled then drain budget s else .next (refuse s)

/-- `RX.SERVICE` (30_encoding.md R134): `RX.DRAIN N_RRD`, then `FlushInboundBatch()` if any frame was delivered. -/
def rxService (s : State) : Out :=
  andThen (drain (some s.cfg.nRrd) s) fun s1 =>
    .next (if countOf s1.result = 0 then s1 else flushInboundBatch s1)

/-! ### POOL.REFILL (43_buffer_pool.md R232) -/

/-- Up to `n` spare buffers allocated and appended, the first failure ending it (R232; 40_rings.md R145 step 5). -/
def addSpares : Nat → State → State
  | 0, s => s
  | n + 1, s =>
    match rxBufAlloc s with
    | (none, s1) => s1
    | (some b, s1) => addSpares n (s1.setPool { s1.pool with spare := s1.pool.spare ++ [b] })

/-- The refill flag cleared. -/
def clearRefill (s : State) : State := s.setPool { s.pool with refillPending := false }

/-- `POOL.REFILL` (R232). -/
def refill (s : State) : State :=
  if s.flags.enabled then clearRefill (addSpares (s.cfg.spareCap - s.pool.spare.length) s) else clearRefill s

/-! ### The meanings -/

/-- `RX.DRAIN budget` (42_receive.md R190). -/
def execRxDrain (budget : BitVec 24) (s : State) : Out := drainIfEnabled (budgetOf budget) s

/-- `POOL.REFILL` (43_buffer_pool.md R232). -/
def execPoolRefill (s : State) : Out := .next ((refill s).setResult .returned)

end Sys2Proof.Machine
end

