-- ==== Sys2Proof/Machine/Transmit.lean ====
section
/-! DEFINITION. The transmit family: `TX.PULL`, `TX.RECLAIM` and the three enqueue operations (41_transmit.md R160 to R182). -/

namespace Sys2Proof.Machine

/-! ### TX.PULL to its end (41_transmit.md R177) -/

/-- Up to `n` accesses of a `TX.PULL` in progress, with an interleaving point before each. -/
def pullRun : Nat → State → Out
  | 0, s => .next s
  | n + 1, s => if pulling s then andThen (pullStep (macPoint s)) (pullRun n) else .next s

/-- More accesses than a `TX.PULL` has: three for each frame that is queued or will be, and two at its end. -/
def pullFuel (s : State) : Nat := 3 * (s.env.outbound.length + pendingSteps s) + 6

/-- A `TX.PULL` in progress goes on to its end. There is one producer (20_memory.md R85), so that an enqueue or another `TX.PULL`
waits for it. -/
def finishPull (s : State) : Out := pullRun (pullFuel s) s

/-- `TX.PULL` from its beginning to its end. -/
def pull (s : State) : Out := andThen (finishPull (beginPull s)) fun t => .next (t.setResult .returned)

/-! ### Reclaim (41_transmit.md R180 to R182) -/

/-- One completed slot reclaimed (R180). -/
def reclaimOne (s : State) : State :=
  let i := s.tx.dirty
  let s1 := match s.tx.mbuf.getD i.toNat none with
    | some f => setTxMbuf i none (releaseFrame f true s)
    | none => s
  addFree 1#32
    (s1.setTx { s1.tx with dirty := inc i 1 s1.cfg.nTx, doneCount := s1.tx.doneCount + 1#32 })

/-- `n` slots reclaimed in order. The PULLER may read the free count between two `AtomicAdd`s (R183; 20_memory.md R85). -/
def reclaimMany : Nat → State → State
  | 0, s => s
  | n + 1, s => reclaimMany n (macPoint (reclaimOne s))

/-- `wake()` (R181). The accesses of `S.txStalled` are plain (R183): the PULLER may come between the test, the clearing and the
signal. -/
def wake (s : State) : State :=
  if wakeDue s then
    let s1 := macPoint s
    signalResumable (macPoint (s1.setTx { s1.tx with stalled := false }))
  else s

/-- `RegRead16(TPD_CIDX) & TX_MASK`, one fresh read (R180, 30_encoding.md R122). -/
def hwConsumer (s : State) : Half := BitVec.ofNat 16 ((regRead .tpdCidx s).toNat &&& (s.cfg.nTx - 1))

/-- The hardware consumer index lies in the circular interval `[txDirty, txNext]` (R182 (c), U3). -/
def consumerInside (s : State) : Bool :=
  decide (dist s.tx.dirty (hwConsumer s) s.cfg.nTx ≤ dist s.tx.dirty s.tx.next s.cfg.nTx)

/-- The walk from the dirty index to the consumer index read, and the wake (R180, R181). -/
def reclaimTo (hw : Half) (s : State) : State :=
  (wake (reclaimMany (dist s.tx.dirty hw s.cfg.nTx) s)).setResult .returned

/-- `TX.RECLAIM` where its precondition holds (R180); the MAC's index is read once. -/
def reclaim (s : State) : Out :=
  if consumerInside s then .next (reclaimTo (hwConsumer s) s) else .refused .consumerIndexOutside

/-- `TX.RECLAIM`: refused while disabled (60_exceptions.md R270). -/
def reclaimIfEnabled (s : State) : Out := if s.flags.enabled then reclaim s else .next (refuse s)

/-! ### The meanings -/

/-- `TXQ.PLAIN f` (R174). -/
def execTxqPlain (s : State) : Out := andThen (finishPull s) fun t => enqueue .none true t.frameArg t

/-- `TXQ.TSO4 f` (R175). -/
def execTxqTso4 (s : State) : Out := andThen (finishPull s) fun t => enqueue .tso4 true t.frameArg t

/-- `TXQ.TSO6 f` (R176). -/
def execTxqTso6 (s : State) : Out := andThen (finishPull s) fun t => enqueue .tso6 true t.frameArg t

/-- `TX.PULL` (R177). -/
def execTxPull (s : State) : Out := andThen (finishPull s) pull

/-- `TX.RECLAIM` (R180), refused while disabled (60_exceptions.md R270). -/
def execTxReclaim (s : State) : Out := reclaimIfEnabled s

end Sys2Proof.Machine
end

