-- ==== Sys2Proof/Machine/Rings.lean ====
section
/-! DEFINITION. The ring family: `RING.SETUP`, `RING.TEARDOWN`, `TX.CLEAR`, `RX.RESET` (40_rings.md R145 to R149). -/

namespace Sys2Proof.Machine

/-! ### RING.SETUP (40_rings.md R145) -/

/-- The three regions allocated in order, an allocation that fails releasing those before it (step 1, fail). -/
def allocRegions (s : State) : Option (Addr × Addr × Addr) × State :=
  match dmaAlloc (txBytes s.cfg) s with
  | (none, s1) => (none, s1)
  | (some t, s1) =>
    match dmaAlloc (rrdBytes s.cfg) s1 with
    | (none, s2) => (none, dmaFree t (txBytes s.cfg) s2)
    | (some r, s2) =>
      match dmaAlloc (rfdBytes s.cfg) s2 with
      | (none, s3) => (none, dmaFree r (rrdBytes s.cfg) (dmaFree t (txBytes s.cfg) s3))
      | (some q, s3) => (some (t, r, q), s3)

/-- Every byte of the three regions written 0 (step 2; R146 step 4). -/
def zeroRings (s : State) : State :=
  s.setMem (zeroRange (zeroRange (zeroRange s.mem s.tx.ringPhys (txBytes s.cfg)) s.rx.rrdPhys (rrdBytes s.cfg))
    s.rx.rfdPhys (rfdBytes s.cfg))

/-- The three regions released (step 5 of R146). -/
def freeRings (s : State) : State :=
  dmaFree s.rx.rfdPhys (rfdBytes s.cfg) (dmaFree s.rx.rrdPhys (rrdBytes s.cfg) (dmaFree s.tx.ringPhys (txBytes s.cfg) s))

/-- An empty transmit side over its ring (step 3; R147 step 3). -/
def emptyTx (c : Cfg) (t : TxSide) : TxSide :=
  { t with next := 0#16, dirty := 0#16, numFree := BitVec.ofNat 32 c.nTx, stalled := false, mbuf := List.replicate c.nTx none }

/-- The posted buffers of slots `i` on, `n` of them, each with its address in its free descriptor (step 4); `false` when an
allocation failed. -/
def postBuffers : Nat → Nat → State → Bool × State
  | 0, _, s => (true, s)
  | n + 1, i, s =>
    match rxBufAlloc s with
    | (none, s1) => (false, s1)
    | (some b, s1) =>
      postBuffers n (i + 1)
        ((s1.setMem (store64 s1.mem (rfdFieldAddr s1.cfg s1.rx.rfdPhys (BitVec.ofNat 16 i)) b.phys)).setRx
          { s1.rx with mbuf := s1.rx.mbuf ++ [some b] })

/-- The tracking arrays and the pool cease to exist. -/
def dropArrays (s : State) : State :=
  ((s.setTx { s.tx with mbuf := [] }).setRx { s.rx with mbuf := [] }).setFlags { s.flags with ringsUp := false }

/-- Setup failed: `CfgSetupFail`, result `FAIL` (fail). -/
def setupFail (s : State) : State := (raise .cfgSetupFail s).setResult .fail

/-- Everything unwound after a posted-buffer allocation failed (fail). -/
def unwind (s : State) : State := setupFail (dropArrays (freeRings (freeAll (tracked s.rx.mbuf) s)))

/-- The ring regions in place, zeroed, with an empty transmit side and no posted buffer (steps 1 to 3). No fence follows before
`RFD_PIDX` is written, so the MAC may see the rings as they were, and the addresses of step 4 late (20_memory.md R88). -/
def placeRings (t r q : Addr) (s : State) : State :=
  let s1 := (s.setTx { s.tx with ringPhys := t }).setRx { s.rx with rrdPhys := r, rfdPhys := q, mbuf := [] }
  let s2 := zeroRings (holdLate (allSlots s1) s1)
  s2.setTx (emptyTx s2.cfg s2.tx)

/-- The receive cursors at 0 (step 4; R146 step 5; R148 step 2). -/
def clearRxCursors (s : State) : State := s.setRx { s.rx with next := 0#16, free := 0#16 }

/-- The spare pool populated: a shortfall is no failure (step 5, 43_buffer_pool.md R228). -/
def populatePool (s : State) : State :=
  addSpares s.cfg.spareCap (s.setPool { spare := [], refillPending := false })

/-- The device registers after a `RING.SETUP`: column (b) of 10_state.md R54, with R40 and R43. -/
def setupRegs (c : Cfg) (d : DeviceRegs) : DeviceRegs :=
  { DeviceRegs.zero with rfdPidx := BitVec.ofNat 16 (c.nRfd - 1), isr := d.isr, imr := d.imr }

/-- Step 4 to step 6 once every buffer is posted, and the registers as column (b) of R54 has them. They hold their values with no
register write issued: the doorbell write is `DEV.ENABLE`'s, "not here" (DEDUCED, log entry 13). -/
def setupDone (s : State) : State :=
  (((populatePool (clearRxCursors s)).setMac { s.mac with regs := setupRegs s.cfg s.mac.regs }).setFlags
    { s.flags with ringsUp := true }).setResult .ok

/-- `RING.SETUP` (R145). -/
def ringSetup (s : State) : State :=
  match allocRegions s with
  | (none, s1) => setupFail s1
  | (some (t, r, q), s1) =>
    match postBuffers s1.cfg.nRfd 0 (placeRings t r q s1) with
    | (true, s2) => setupDone s2
    | (false, s2) => unwind s2

/-! ### TX.CLEAR, RX.RESET, RING.TEARDOWN (40_rings.md R146 to R148) -/

/-- `TX.CLEAR` (R147). The MAC may see the zeroed descriptors late (20_memory.md R88). -/
def txClear (s : State) : State :=
  let s1 := releaseAll (inFlight s.tx.mbuf) s
  let s2 := (holdLate (txSlots s1) s1).setMem (zeroRange s1.mem s1.tx.ringPhys (txBytes s1.cfg))
  s2.setTx (emptyTx s2.cfg s2.tx)

/-- `RX.RESET` steps 1 and 2 (R148). No fence follows: the MAC may see the zeroed descriptors late (20_memory.md R88). -/
def rxResetRings (s : State) : State :=
  clearRxCursors ((holdLate (rrdSlots s) s).setMem (zeroRange s.mem s.rx.rrdPhys (rrdBytes s.cfg)))

/-- `RX.RESET` step 3, also step 3 of `DEV.ENABLE`: every slot but the last is offered to the MAC (R148). -/
def offerAll (s : State) : State := regWrite .rfdPidx (BitVec.ofNat 32 (s.cfg.nRfd - 1)) s

/-- `RING.TEARDOWN` (R146). The MAC may see the zeroed rings late (20_memory.md R88). -/
def ringTeardown (s : State) : State :=
  let s1 := txClear s
  let s2 := freeAll (tracked s1.rx.mbuf) s1
  let s3 := freeAll s2.pool.spare s2
  let s4 := s3.setPool { spare := [], refillPending := false }
  clearRxCursors (dropArrays (freeRings (zeroRings (holdLate (rrdSlots s4 ++ rfdSlots s4) s4))))

/-! ### The meanings: an operation requested on its own -/

/-- `RING.SETUP` requested on its own: its precondition is `S.enabled = 0` and no ring region (R145). -/
def execRingSetup (s : State) : Out :=
  .next (if s.flags.enabled || s.flags.ringsUp then refuse s else ringSetup s)

/-- `RING.TEARDOWN` requested on its own: its precondition is that ring regions exist (R146); it is `DEV.DISABLE`'s while the
interface is enabled (60_exceptions.md R270), and outside the model on a running MAC (U10). -/
def execRingTeardown (s : State) : Out :=
  if s.flags.enabled || !s.flags.ringsUp then .next (refuse s)
  else if s.mac.started then .refused .macRunning
  else .next ((ringTeardown s).setResult .returned)

/-- `TX.CLEAR` requested on its own (R147): needs a ring, and a stopped MAC (U10). -/
def execTxClear (s : State) : Out :=
  if !s.flags.ringsUp then .next (refuse s)
  else if s.mac.started then .refused .macRunning
  else .next ((txClear s).setResult .returned)

/-- `RX.RESET` requested on its own (R148): needs a ring, and a stopped MAC (U10). R148 asks besides that the MAC has been reset,
so that its receive indices are 0; on one stopped but not reset, which the rule excludes, the model carries the operation out
(DESIGN CHOICE, log entry 13). -/
def execRxReset (s : State) : Out :=
  if !s.flags.ringsUp then .next (refuse s)
  else if s.mac.started then .refused .macRunning
  else .next ((offerAll (rxResetRings s)).setResult .returned)

end Sys2Proof.Machine
end

