-- ==== Sys2Proof/Machine/Control.lean ====
section
/-! DEFINITION. The control family: enable, disable, forced reset, the link machine, medium selection, the watchdog, the
interrupt dispatcher and the poll callback (60_exceptions.md R248 to R265). -/

namespace Sys2Proof.Machine

/-! ### Watchdog arming (60_exceptions.md R263) -/

/-- `wdt_arm()`. -/
def wdtArm (s : State) : State :=
  (s.setFlags { s.flags with wdtArmed := true }).setWdt { lastDone := s.tx.doneCount, stallTicks := 0 }

/-- `wdt_cancel()`. -/
def wdtCancel (s : State) : State := s.setFlags { s.flags with wdtArmed := false }

/-- A mask written to `IMR` and mirrored in `S.intrMask` (10_state.md R39, R45). -/
def writeIntrMask (m : Word) (s : State) : State := regWrite .imr m (s.setIntrMask m)

/-! ### DEV.DISABLE (60_exceptions.md R264) -/

/-- The MAC agent reads and writes no host memory from here on, whatever its reset answered (93_implementation_defined.md U9);
status bits it may still set (10_state.md R59; log entry 22). -/
def haltMac (s : State) : State := s.setMac { s.mac with started := false, startedWith := none }

/-- Step 2: the interrupt source disabled and the writes flushed. -/
def disableInterrupts (s : State) : State := regFlush (regWrite .isr s.cfg.isr.dis (writeIntrMask 0#32 s))

/-- Step 3: the flags cleared before any resource is freed. -/
def clearModeFlags (s : State) : State :=
  (s.setFlags { s.flags with enabled := false, linkUp := false, pollMode := false }).setLink Link.down

/-- Step 5: the MAC reset; a timeout is noted and teardown continues. -/
def resetForDisable (s : State) : State :=
  match hwCall .macReset s with
  | (true, s1) => haltMac s1
  | (false, s1) => haltMac (raise .cfgTimeout s1)

/-- `DEV.DISABLE` of an enabled interface. -/
def disableSteps (s : State) : State :=
  let s1 := macPoint (clearModeFlags (disableInterrupts (wdtCancel s)))
  (ringTeardown (macPoint (resetForDisable (flushOutbound s1)))).setResult .ok

/-- `DEV.DISABLE` (R264): nothing when already disabled. -/
def devDisable (s : State) : State := if s.flags.enabled then disableSteps s else s.setResult .ok

/-- An administrative sequence aborted by a timeout: the event, `DEV.DISABLE`, `FAIL` (R244). -/
def abortAdmin (s : State) : State := (devDisable (raise .cfgTimeout s)).setResult .fail

/-! ### DEV.ENABLE (60_exceptions.md R260) -/

/-- Steps 3 to 6: the receive window offered, the link unknown, the mask narrowed, the flag set. -/
def enableDone (s : State) : State :=
  let s1 := offerAll s
  let s2 := (s1.setLink Link.down).setFlags { s1.flags with linkUp := false, wdtArmed := false }
  let s3 := writeIntrMask (imrDown s2.cfg) s2
  (s3.setFlags { s3.flags with enabled := true }).setResult .ok

/-- The hardware calls of step 2 in order. -/
def enableCalls (s : State) : List HwCall := [.macReset, .macConfigure (macConf s), .setAdvertise s.medium, .macStart none]

/-- A hardware call of step 2 timed out: everything released, `FAIL`. -/
def enableAbort (s : State) : State := (ringTeardown (haltMac (raise .cfgTimeout s))).setResult .fail

/-- `DEV.ENABLE` once the rings are set up. -/
def enableMac (s : State) : State :=
  match hwCalls (enableCalls s) s with
  | (true, s1) => enableDone s1
  | (false, s1) => enableAbort s1

/-- `DEV.ENABLE` (R260): refused with `FAIL` when enabled, or when rings already exist, which `RING.SETUP` excludes (R145). -/
def devEnable (s : State) : State :=
  if s.flags.enabled || s.flags.ringsUp then s.setResult .fail
  else
    let s1 := ringSetup s
    if s1.result = .ok then enableMac s1 else s1

/-! ### DEV.RESET (60_exceptions.md R259) -/

/-- `DEV.RESTART` (30_encoding.md R134): `DEV.DISABLE` then `DEV.ENABLE`. -/
def devRestart (s : State) : State := devEnable (macPoint (devDisable s))

/-- `DEV.RESET` (R259): the restart, the poll mode preserved where it succeeds. -/
def devReset (s : State) : State :=
  let s1 := devRestart s
  if s1.result = .ok then s1.setFlags { s1.flags with pollMode := s.flags.pollMode } else s1

/-! ### The link machine (60_exceptions.md R256 to R258) -/

/-- `LINK.UP p` where its precondition holds (R257). -/
def linkUp (p : Link) (s : State) : State :=
  match hwCall (.macStart (some p)) (s.setLink p) with
  | (false, s1) => abortAdmin s1
  | (true, s1) =>
    let s2 := writeIntrMask (imrFull s1.cfg) s1
    (wdtArm (signalResumable (macPoint (s2.setFlags { s2.flags with linkUp := true })))).setResult .ok

/-- Steps (a) and (b) of `LINK.DOWN`. -/
def linkDownStop (s : State) : State := wdtCancel (flushOutbound (macPoint (s.setFlags { s.flags with linkUp := false })))

/-- Steps (d) and (e) of `LINK.DOWN`. -/
def linkDownClear (s : State) : State :=
  let s1 := rxResetRings (txClear (macPoint s))
  writeIntrMask (imrDown s1.cfg) s1

/-- The hardware calls of step (f). -/
def linkDownCalls (s : State) : List HwCall := [.macConfigure (macConf s), .macStart none]

/-- `LINK.DOWN` of an enabled interface (R258). -/
def linkDown (s : State) : State :=
  match hwCall .macReset (linkDownStop s) with
  | (false, s1) => abortAdmin s1
  | (true, s1) =>
    let s2 := linkDownClear s1
    match hwCalls (linkDownCalls s2) s2 with
    | (false, s3) => abortAdmin s3
    | (true, s3) => ((offerAll s3).setLink Link.down).setResult .ok

/-- `link_eval()` on what `HwReadLink` answered (R256). -/
def linkEvalOn (r : Option Link) (s : State) : Out :=
  match r with
  | none => .next (if s.flags.linkUp then linkDown s else s)
  | some p =>
    if p.valid then
      let s1 := if s.flags.linkUp && p != s.link then macPoint (linkDown s) else s
      .next (if !s1.flags.linkUp && s1.flags.enabled then linkUp p s1 else s1)
    else .refused .invalidLink

/-- `link_eval()` (R256). -/
def linkEval (s : State) : Out :=
  let a := hwReadLink s
  linkEvalOn a.1 a.2

/-! ### MEDIUM.SELECT (60_exceptions.md R261) -/

/-- A medium that is not valid: `CfgInvalidMedium`, `FAIL`, nothing else (R240 code 11). -/
def refuseMedium (s : State) : State := (raise .cfgInvalidMedium s).setResult .fail

/-- An illegal operation word: no effect, and for a medium code with reserved bits a failed administrative operation
(30_encoding.md R132). -/
def refuseWord (e : DecodeError) (s : State) : State :=
  match e with
  | .mediumReserved => refuseMedium s
  | .unknownOpcode => refuse s
  | .operandNotZero => refuse s
  | .pollModeOperand => refuse s

/-- The "reconfigure" step: the new capability set advertised. -/
def advertise (m : BitVec 5) (s : State) : State :=
  match hwCall (.setAdvertise m) s with
  | (true, s1) => s1.setResult .ok
  | (false, s1) => (raise .cfgTimeout s1).setResult .fail

/-- `MEDIUM.SELECT` of a legal code on an enabled interface, the medium already recorded. -/
def reselect (m : BitVec 5) (s : State) : State :=
  if s.flags.linkUp then
    let s1 := linkDown s
    if s1.result = .ok then advertise m s1 else s1
  else advertise m (s.setLink Link.down)

/-- `MEDIUM.SELECT m` (R261). -/
def mediumSelect (m : BitVec 5) (s : State) : State :=
  if mediumLegal m then
    let s1 := s.setMedium m
    if s.flags.enabled then reselect m s1 else s1.setResult .ok
  else refuseMedium s

/-! ### The deadlock monitor (60_exceptions.md R262) -/

/-- A stalled tick: the count raised, and at the threshold the deadlock declared (R262). -/
def stalledTick (s : State) : State :=
  let s1 := s.setWdt { s.wdt with stallTicks := s.wdt.stallTicks + 1 }
  if s1.wdt.stallTicks = s1.cfg.wdtStallThreshold then devReset (log .transmitDeadlock (raise .hwDeadlock s1))
  else s1.setWdt { s1.wdt with lastDone := s1.tx.doneCount }

/-- `WDT.TICK` (R262). -/
def wdtTick (s : State) : State :=
  if s.flags.enabled && s.flags.wdtArmed then
    if tickStalled s then stalledTick s else s.setWdt { lastDone := s.tx.doneCount, stallTicks := 0 }
  else s

/-! ### Interrupt dispatch (60_exceptions.md R249 to R253) -/

/-- Step (1): a fatal condition short-circuits everything (R249, R250). -/
def fatalReset (s : State) : State := devReset (log .fatalInterrupt (raise .hwFatal s))

/-- Step (2): an alert is logged only (R247). -/
def logAlert (status : Word) (s : State) : State := if hasBit status s.cfg.isr.alert then log .alert s else s

/-- Step (3), transmit: the MAC may have stepped since the entry. -/
def serveTx (status : Word) (s : State) : Out :=
  if hasBit status s.cfg.isr.tx then reclaimIfEnabled (macPoint s) else .next s

/-- Step (3), receive: the drain of at most `N_RRD` completions and the flush. -/
def serveRx (status : Word) (s : State) : Out := if hasBit status s.cfg.isr.rx then rxService s else .next s

/-- Step (3): skipped in cooperative-poll mode (R253 (c)). -/
def serveEngines (status : Word) (s : State) : Out :=
  if s.flags.pollMode then .next s else andThen (serveTx status s) (serveRx status)

/-- Step (4); the MAC may have stepped since the engines ran. -/
def serveLink (status : Word) (s : State) : Out := if hasBit status s.cfg.isr.link then linkEval (macPoint s) else .next s

/-- The exit write (R252). -/
def dispatchExit (s : State) : Out := .next ((regWrite .isr 0#32 s).setResult .returned)

/-- Step (4) and the exit. -/
def serveEnd (status : Word) (s : State) : Out := andThen (serveLink status s) dispatchExit

/-- Steps (2) to the exit on the acknowledged status (R249). -/
def serve (status : Word) (s : State) : Out := andThen (serveEngines status (logAlert status s)) (serveEnd status)

/-- The entry write: the value read with DIS also set (R251). Between the read and the write the MAC may step. -/
def dispatchEntry (s : State) : State := regWrite .isr (regRead .isr s ||| s.cfg.isr.dis) (macPoint s)

/-- `IRQ.DISPATCH` of an enabled interface (R249). -/
def dispatch (s : State) : Out :=
  let status := regRead .isr s
  let s1 := dispatchEntry s
  if hasBit status s.cfg.isr.fatal then .next ((fatalReset s1).setResult .returned) else serve status s1

/-! ### Polling (60_exceptions.md R254, R255) -/

/-- `POLL.MODE m` (R254): refused while disabled. -/
def setPollMode (on : Bool) (s : State) : State :=
  if s.flags.enabled then (s.setFlags { s.flags with pollMode := on }).setResult .returned else refuse s

/-- `POLL.SERVICE budget` (R255): the reclaim, then the drain, no flush. -/
def pollService (budget : Option Nat) (s : State) : Out :=
  if s.flags.enabled && s.flags.pollMode then andThen (reclaim s) (drain budget)
  else .next (s.setResult (.count 0))

/-! ### The meanings -/

/-- `IRQ.DISPATCH` (R249); it returns at its first line while disabled (R253 (a)). -/
def execIrqDispatch (s : State) : Out := if s.flags.enabled then dispatch s else .next (s.setResult .returned)

/-- `POLL.SERVICE budget` (R255). -/
def execPollService (budget : BitVec 24) (s : State) : Out := pollService (budgetOf budget) s

/-- `POLL.MODE m` (R254). -/
def execPollMode (on : Bool) (s : State) : Out := .next (setPollMode on s)

/-- `WDT.TICK` (R262). -/
def execWdtTick (s : State) : Out := .next ((wdtTick s).setResult .returned)

/-- `LINK.UP p` (R257): refused while disabled or already up (R270); `p` must be a valid medium (U8). -/
def execLinkUp (s : State) : Out :=
  if !s.flags.enabled || s.flags.linkUp then .next (refuse s)
  else if s.linkArg.valid then .next (linkUp s.linkArg s)
  else .refused .invalidLink

/-- `LINK.DOWN` (R258): refused while disabled (R270). -/
def execLinkDown (s : State) : Out := .next (if s.flags.enabled then linkDown s else refuse s)

/-- `DEV.RESET` (R259): refused while disabled (R270). -/
def execDevReset (s : State) : Out := .next (if s.flags.enabled then devReset s else refuse s)

/-- `DEV.ENABLE` (R260). -/
def execDevEnable (s : State) : Out := .next (devEnable s)

/-- `DEV.DISABLE` (R264). -/
def execDevDisable (s : State) : Out := .next (devDisable s)

/-- `MEDIUM.SELECT m` (R261). -/
def execMediumSelect (m : BitVec 5) (s : State) : Out := .next (mediumSelect m s)

end Sys2Proof.Machine
end

