-- ==== Sys2Proof/Machine/Dispatch.lean ====
section
/-! DEFINITION. One arm per operation. -/

namespace Sys2Proof.Machine

def exec (i : Instr) (s : State) : Host.Outcome State Fault Refusal :=
  match i with
  | .ringSetup => Sys2Proof.Machine.execRingSetup s
  | .ringTeardown => Sys2Proof.Machine.execRingTeardown s
  | .txClear => Sys2Proof.Machine.execTxClear s
  | .rxReset => Sys2Proof.Machine.execRxReset s
  | .txqPlain => Sys2Proof.Machine.execTxqPlain s
  | .txqTso4 => Sys2Proof.Machine.execTxqTso4 s
  | .txqTso6 => Sys2Proof.Machine.execTxqTso6 s
  | .txPull => Sys2Proof.Machine.execTxPull s
  | .txReclaim => Sys2Proof.Machine.execTxReclaim s
  | .rxDrain budget => Sys2Proof.Machine.execRxDrain budget s
  | .poolRefill => Sys2Proof.Machine.execPoolRefill s
  | .irqDispatch => Sys2Proof.Machine.execIrqDispatch s
  | .pollService budget => Sys2Proof.Machine.execPollService budget s
  | .pollMode on => Sys2Proof.Machine.execPollMode on s
  | .wdtTick => Sys2Proof.Machine.execWdtTick s
  | .linkUp => Sys2Proof.Machine.execLinkUp s
  | .linkDown => Sys2Proof.Machine.execLinkDown s
  | .devReset => Sys2Proof.Machine.execDevReset s
  | .devEnable => Sys2Proof.Machine.execDevEnable s
  | .devDisable => Sys2Proof.Machine.execDevDisable s
  | .mediumSelect medium => Sys2Proof.Machine.execMediumSelect medium s

end Sys2Proof.Machine
end

