-- ==== Sys2Proof/Machine/Agents.lean ====
section
/-! DEFINITION. What reaches the serialized context and when: a request fetched and carried out, an illegal word refused, an
environment event, and what the machine's own agents do when nothing else is scheduled (00_scope.md R17, 30_encoding.md R132,
R133; 60_exceptions.md R248, 43_buffer_pool.md R232, 41_transmit.md R177). -/

namespace Sys2Proof.Machine

/-- A request carried out: its operands put in place, its word decoded and executed. -/
def runRequest (r : Request) (s : State) : Out :=
  match decode r.word with
  | .ok i => exec i (s.setArgs r.frame r.link)
  | .error e => .next (refuseWord e (s.setArgs r.frame r.link))

/-- An answer of the environment settled for a coming call. -/
def settleAnswer (a : Answer) (e : Env) : Env :=
  match a with
  | .alloc x => { e with alloc := e.alloc ++ [x] }
  | .dma x => { e with dma := e.dma ++ [x] }
  | .hw x => { e with hw := e.hw ++ [x] }
  | .phy x => { e with phy := e.phy ++ [x] }

/-- One scheduled event. -/
def runEvent (e : Event) (s : State) : Out :=
  match e with
  | .op r => runRequest r s
  | .mac m => .next (macStep m s)
  | .pull => pullTurn s
  | .offer f => .next (offerFrame f s)
  | .answer a => .next (s.setEnv (settleAnswer a s.env))
  | .allocFail k => .next (s.setEnv { s.env with alloc := List.replicate k none ++ s.env.alloc })
  | .hostWrite a bytes => .next (hostWrite a bytes s)
  | .bufReturn r => .next (bufReturn r s)
  | .ceaseless on => .next (s.setEnv { s.env with ceaseless := on })
  | .slowBus on => .next (s.setEnv { s.env with slowBus := on })

/-- Nothing is scheduled: an asserted line queues a dispatch, else a scheduled refill runs, else the PULLER goes on with
what it began, or pulls; an idle core has no operation in progress (R248, R232, R177, R271). -/
def runIdle (s : State) : Out :=
  if irqAsserted s && s.flags.enabled then exec .irqDispatch s
  else if s.pool.refillPending then exec .poolRefill s
  else if pulling s then finishPull s
  else if pullDue s then exec .txPull s
  else .next s

/-- The next event of the schedule, or the idle machine. -/
def runNext (s : State) : Out :=
  match s.pending with
  | [] => runIdle s
  | e :: rest => runEvent e (s.setPending rest)

/-- A request for the operation of a word. The out-of-band operands are ones the word's operation can take: a frame of its
offload mode, a valid medium (log entry 6). -/
def requestOf (w : Word) : Request where
  word := w
  frame :=
    { emptyFrame with
      tsoMode := (match (opwOpcode w).toNat with
        | 0x11 => .tso4
        | 0x12 => .tso6
        | _ => .none)
      mss := 1#16 }
  link := { speed := .s1000, duplex := .full, flowControl := 0#2, eee := false }

end Sys2Proof.Machine
end

