-- ==== Sys2Proof/Machine/Step.lean ====
section
/-! DEFINITION. One step of the machine, and how an operation word is placed where the next step takes it. -/

namespace Sys2Proof.Machine

/-- One step: the next scheduled event, or what the machine's own agents do. A configuration that violates
70_reset_and_hazards.md R286 is refused (93_implementation_defined.md U21). -/
def step (s : State) : Host.Outcome State Fault Refusal :=
  if s.cfg.valid then runNext s else .refused .invalidConfig

/-- `s` with a request for the operation word `w` first in its schedule. -/
def State.withFetchWord (s : State) (nbits w : Nat) : State :=
  s.setPending (.op (requestOf (BitVec.ofNat 32 (w % 2 ^ nbits))) :: s.pending)

end Sys2Proof.Machine
end

