-- ==== Sys2Proof/Safety.lean ====
section
/-! DEFINITION. The terms claims are stated in: the constraints of a usable configuration, the invariants of the state, the
descriptor images a frame becomes, what a record of acts shows, and the schedules claims speak of. -/

namespace Sys2Proof.Machine

/-! ### The configuration (70_reset_and_hazards.md R286) -/

/-- The constraints on `CFG` collected in R286, as R286 lists them. -/
def ConstraintsHold (c : Cfg) : Prop :=
  (∃ k, c.nTx = 2 ^ k) ∧ (∃ k, c.nRrd = 2 ^ k) ∧ (∃ k, c.nRfd = 2 ^ k) ∧
  c.nTx ≤ 65536 ∧ c.nRrd ≤ 65536 ∧ c.nRfd ≤ 4096 ∧
  (c.txSched = .push → c.maxSegs + 1 + c.txSafetyMargin ≤ c.nTx / 4) ∧
  (c.txSched = .pull → c.pullReserve ≤ c.nTx / 4) ∧
  3 ≤ c.txSafetyMargin ∧ c.maxSegs + 2 ≤ c.pullReserve ∧ 1 ≤ c.maxSegs ∧
  (c.jumboSupport = true → 16 ≤ c.nRfd) ∧ 2 ≤ c.nRfd ∧
  0 < c.rxBufSize ∧ c.spareLowWater ≤ c.spareCap ∧ 1 ≤ c.wdtStallThreshold ∧
  8 ≤ c.ringAlign ∧ (∃ k, c.ringAlign = 2 ^ k)

/-! ### Illegal operation words (30_encoding.md R132) -/

/-- The opcodes of R130 whose operation takes no number operand. -/
def plainOpcodes : List Nat :=
  [0x01, 0x02, 0x03, 0x04, 0x10, 0x11, 0x12, 0x13, 0x14, 0x30, 0x40, 0x43, 0x44, 0x45, 0x46, 0x47, 0x48]

/-- The opcodes of R130 whose operation takes one. -/
def operandOpcodes : List Nat := [0x20, 0x41, 0x42, 0x49]

/-- An illegal word that is not a malformed medium selection (R132). -/
def IllegalWord (w : Word) : Prop :=
  (w.toNat % 256 ∉ plainOpcodes ∧ w.toNat % 256 ∉ operandOpcodes) ∨
  (w.toNat % 256 ∈ plainOpcodes ∧ w.toNat / 256 ≠ 0) ∨
  (w.toNat % 256 = 0x42 ∧ 1 < w.toNat / 256)

/-- `MEDIUM.SELECT` with reserved bits, or with 1000 Mb half duplex (R132). -/
def IllegalMedium (w : Word) : Prop :=
  w.toNat % 256 = 0x49 ∧ (32 ≤ w.toNat / 256 ∨ w.toNat / 256 % 8 = 3)

/-! ### Invariants of the state -/

/-- The PULLER will send a frame on the room it has seen (41_transmit.md R177). -/
def willSend (s : State) : Bool :=
  match s.puller with
  | .idle => false
  | .looping => false
  | .saw free => !belowReserve free s.cfg
  | .holds _ => true

/-- Ring conservation and cursor bounds (10_state.md R21, R22, R47): free plus in flight is the ring's length; an enabled
interface has its rings (R53). Room the PULLER has seen is still there: only a producer subtracts, and there is one (20_memory.md
R85). -/
def TxSound (s : State) : Prop :=
  (s.flags.enabled = true → s.flags.ringsUp = true) ∧
  (s.flags.ringsUp = true →
    s.tx.next.toNat < s.cfg.nTx ∧ s.tx.dirty.toNat < s.cfg.nTx ∧ s.tx.mbuf.length = s.cfg.nTx ∧
    s.tx.numFree.toInt + dist s.tx.dirty s.tx.next s.cfg.nTx = s.cfg.nTx ∧
    (willSend s = true → (s.cfg.maxSegs + 2 : Nat) ≤ s.tx.numFree.toInt))

/-- The mode table of 60_exceptions.md R267 and R269, with R39: what each mode fixes of the MAC, of `IMR` and its mirror, of the
watchdog and of the flags, and that a link that is down has a clean transmit side: empty, every slot free and no frame held.
Of the row of DISABLED one entry is left out, that no rings exist: a direct `RING.SETUP` builds them in that mode (log entry
13). The receive rings of a link that is down are not held to be clean: the MAC runs in that mode and may complete a frame
(10_state.md R58). -/
def ModeSound (s : State) : Prop :=
  (s.flags.enabled = false →
    s.flags.linkUp = false ∧ s.flags.pollMode = false ∧ s.flags.wdtArmed = false ∧ s.mac.started = false ∧
    s.intrMask = 0#32 ∧ s.mac.regs.imr = 0#32) ∧
  (s.flags.enabled = true →
    s.flags.ringsUp = true ∧ s.mac.started = true ∧ s.mac.regs.imr = s.intrMask ∧
    s.flags.wdtArmed = s.flags.linkUp ∧
    s.intrMask = if s.flags.linkUp then imrFull s.cfg else imrDown s.cfg) ∧
  (s.flags.enabled = true → s.flags.linkUp = false →
    s.tx.next = s.tx.dirty ∧ s.tx.numFree = BitVec.ofNat 32 s.cfg.nTx ∧ s.tx.mbuf = List.replicate s.cfg.nTx none)

/-- A buffer fit to be posted or kept spare (43_buffer_pool.md R230, 20_memory.md R79, 30_encoding.md R109). -/
def FitBuf (c : Cfg) (b : Buf) : Prop := b.cap = c.rxBufSize ∧ b.phys.toNat % c.bufAlign = 0 ∧ b.phys ≠ 0#64

/-- Receive posting and the bounds of the receive cursors (10_state.md R23, R33, R49), the pool's bound (R35). -/
def RxSound (s : State) : Prop :=
  (s.flags.enabled = true → s.flags.ringsUp = true) ∧
  (s.flags.ringsUp = true →
    s.rx.next.toNat < s.cfg.nRrd ∧ s.rx.free.toNat < s.cfg.nRfd ∧ s.rx.mbuf.length = s.cfg.nRfd ∧
    ∀ e ∈ s.rx.mbuf, ∃ b, e = some b ∧ FitBuf s.cfg b) ∧
  s.pool.spare.length ≤ s.cfg.spareCap ∧ ∀ b ∈ s.pool.spare, FitBuf s.cfg b

/-- The identities of the buffers the core holds: posted, then spare (43_buffer_pool.md R229). -/
def heldIds (s : State) : List Nat := (tracked s.rx.mbuf ++ s.pool.spare).map Buf.id

/-- Every buffer the core holds is held in one place only, and no new buffer will repeat its identity (R229). -/
def OwnedOnce (s : State) : Prop := (heldIds s).Nodup ∧ ∀ i ∈ heldIds s, i < s.env.nextBuf

/-- Host memory has its canonical form. -/
def MemorySound (s : State) : Prop := Memory.wf s.mem = true

/-- The address of the free descriptor of a receive slot. -/
def rfdSlot (s : State) (i : Half) : Addr := rfdFieldAddr s.cfg s.rx.rfdPhys i

/-- The regions given out share no byte, and every ring region and every buffer the core holds is one of them, each one of its
own (20_memory.md R86). -/
def RegionsSound (s : State) : Prop :=
  s.env.live.Pairwise (fun p q => apart p q = true) ∧ (∀ r ∈ s.env.live, r.base.toNat + r.size ≤ 2 ^ 64) ∧
  (coreRegions s).Subperm s.env.live

/-- A MAC that runs was told of the rings and the buffer size as they are, and its receive indices are inside the rings
(10_state.md R46, R56). -/
def MacSound (s : State) : Prop :=
  s.mac.started = true → s.flags.ringsUp = true ∧ s.mac.conf = macConf s ∧
    s.mac.regs.rfdCons.toNat < s.cfg.nRfd ∧ s.mac.regs.rrdProd.toNat < s.cfg.nRrd

/-- Two regions are one, or share no byte. -/
def SameOrApart (p q : Region) : Prop := p = q ∨ apart p q = true

/-- A fence that stands behind a late store stands among the posted doorbell writes. -/
def FencesPosted (s : State) : Prop := ∀ e ∈ s.late, ∀ k, e.due = some k → k ≤ s.posted.length

/-- The late stores (20_memory.md R88) are each to one descriptor whole and to nothing else of the rings; a fence that stands
behind one stands among the posted doorbell writes; every store is ordered ahead of each posted write of `TPD_PIDX`; and none is
late while the MAC sees a published descriptor (R89). -/
def LateSound (s : State) : Prop :=
  s.late.Pairwise (fun d e => SameOrApart (lateRegion d) (lateRegion e)) ∧
  (s.flags.ringsUp = true → ∀ e ∈ s.late, ∀ r ∈ allSlots s, SameOrApart (lateRegion e) r) ∧
  FencesPosted s ∧
  (s.mac.started = true →
    (∀ k p, s.posted[k]? = some p → p.bell = .tx → ∀ e ∈ s.late, ∃ j ≤ k, e.due = some j) ∧
    (bellSeen .tx s ≠ s.mac.regs.txCons → s.late = []))

/-- The free descriptor of each receive slot holds the address of the buffer tracked there (10_state.md R34). -/
def DescriptorsPosted (s : State) : Prop :=
  ∀ i < s.cfg.nRfd, ∀ b, s.rx.mbuf[i]? = some (some b) → load64 s.mem (rfdSlot s (BitVec.ofNat 16 i)) = b.phys

/-- The tracking invariant (10_state.md R34): the free descriptor of a receive slot holds the address of the buffer tracked
there, and the transmit descriptor of a slot that tracks a frame has EOP and the address of the frame's last segment. With it
stands what keeps it so: nothing else is stored where the rings stand. -/
def TrackingSound (s : State) : Prop :=
  (s.flags.ringsUp = true →
    DescriptorsPosted s ∧
    ∀ i < s.cfg.nTx, ∀ f, s.tx.mbuf[i]? = some (some f) →
      let a := tpdSlotAddr s.cfg s.tx.ringPhys (BitVec.ofNat 16 i)
      wordBit (load32 s.mem (fieldAddr a s.cfg.layout.tpdCmd)) s.cfg.layout.eop = true ∧
      ∃ l g, f.segs = some l ∧ l.getLast? = some g ∧ load64 s.mem (fieldAddr a s.cfg.layout.tpdAddr) = g.addr) ∧
  RegionsSound s ∧ MacSound s ∧ LateSound s

/-- Every invariant together. -/
def Sound (s : State) : Prop :=
  TxSound s ∧ ModeSound s ∧ RxSound s ∧ OwnedOnce s ∧ MemorySound s ∧ TrackingSound s

/-! ### What an operation leaves alone -/

/-- Everything of the record `S` but the transmit side and the statistics is the same, and so are the receive counters and the
PULLER. -/
def SameButTx (t s : State) : Prop :=
  t.cfg = s.cfg ∧ t.puller = s.puller ∧ t.rx = s.rx ∧ t.pool = s.pool ∧ t.flags = s.flags ∧ t.wdt = s.wdt ∧ t.link = s.link ∧
  t.medium = s.medium ∧ t.intrMask = s.intrMask ∧ t.env.outbound = s.env.outbound ∧
  t.stats.rxLenErr = s.stats.rxLenErr ∧ t.stats.rxErr = s.stats.rxErr ∧ t.stats.rxResErr = s.stats.rxResErr ∧
  t.stats.rxDelivered = s.stats.rxDelivered ∧ t.stats.resetCount = s.stats.resetCount

/-- Everything of the record `S` but the receive side, the pool and the receive counters is the same, and so are the
PULLER and the count of free header bytes. -/
def SameButRx (t s : State) : Prop :=
  t.cfg = s.cfg ∧ t.puller = s.puller ∧ t.foreign = s.foreign ∧ t.tx = s.tx ∧ t.flags = s.flags ∧ t.wdt = s.wdt ∧
  t.link = s.link ∧ t.medium = s.medium ∧ t.intrMask = s.intrMask ∧ t.env.outbound = s.env.outbound ∧
  t.stats.txDrop = s.stats.txDrop ∧ t.stats.txResErr = s.stats.txResErr ∧ t.stats.txStall = s.stats.txStall ∧
  t.stats.resetCount = s.stats.resetCount

/-- Every field an administrative operation leaves alone: the configuration, the selected medium, the completion counter, the
watchdog's snapshot and the statistics (70_reset_and_hazards.md R282), and the PULLER and the count of free header bytes. -/
def SameLongLived (t s : State) : Prop :=
  t.cfg = s.cfg ∧ t.medium = s.medium ∧ t.tx.doneCount = s.tx.doneCount ∧ t.wdt = s.wdt ∧ t.stats = s.stats ∧
  t.puller = s.puller ∧ t.foreign = s.foreign

/-- The statistics only grow (10_state.md R36). -/
def StatsGrow (t s : State) : Prop :=
  s.stats.txDrop ≤ t.stats.txDrop ∧ s.stats.txResErr ≤ t.stats.txResErr ∧ s.stats.txStall ≤ t.stats.txStall ∧
  s.stats.rxLenErr ≤ t.stats.rxLenErr ∧ s.stats.rxErr ≤ t.stats.rxErr ∧ s.stats.rxResErr ≤ t.stats.rxResErr ∧
  s.stats.rxDelivered ≤ t.stats.rxDelivered ∧ s.stats.resetCount ≤ t.stats.resetCount

/-- Every byte of host memory outside the regions listed reads as before. -/
def SameBytesOutside (t s : State) (regions : List Region) : Prop :=
  ∀ a : Addr, (∀ r ∈ regions, inRange r.base r.size a = false) → readByte t.mem a = readByte s.mem a

/-- Every byte of a region reads 0. -/
def ZeroBytes (m : Memory) (base : Addr) (n : Nat) : Prop := ∀ a : Addr, inRange base n a = true → readByte m a = 0#8

/-! ### What a record of acts shows -/

/-- The acts an operation added, oldest first. -/
def newActs (t s : State) : List Act := (t.trace.take (t.trace.length - s.trace.length)).reverse

/-- An act is a write of the register at an offset. -/
def isWriteTo (offset : Nat) : Act → Bool
  | .regWrite o _ _ => o == offset
  | _ => false

/-- An act frees a buffer. -/
def isBufFree : Act → Bool
  | .bufFree _ => true
  | _ => false

/-- An act returns a frame to the STACK. -/
def isRelease : Act → Bool
  | .release _ _ => true
  | _ => false

/-- No act returned frame `f` to the STACK. -/
def NotReleased (t s : State) (f : Frame) : Prop := ∀ b, Act.release f b ∉ newActs t s

/-- How many acts of a kind a state's record shows. -/
def countActs (p : Act → Bool) (s : State) : Nat := (s.trace.filter p).length

/-- An act raises an event (60_exceptions.md R240). -/
def isRaised (e : CoreEvent) : Act → Bool
  | .raised x => x == e
  | _ => false

/-- An act hands a frame to `EnqueueInbound`. -/
def isInbound : Act → Bool
  | .inbound _ _ _ _ => true
  | _ => false

/-- An act raises one of the two events that count a reset (R240). -/
def isResetRaised (a : Act) : Bool := isRaised .hwDeadlock a || isRaised .hwFatal a

/-- From `s` to `t` each statistic goes up by 1 for every raising of its event, `S.rxDelivered` for every frame handed to
`EnqueueInbound`, and for nothing else (10_state.md R36, 60_exceptions.md R240). -/
def StatsCountActs (t s : State) : Prop :=
  let counted := fun (n : Stats → Nat) (p : Act → Bool) => n t.stats + countActs p s = n s.stats + countActs p t
  counted Stats.txDrop (isRaised .txDropGate) ∧ counted Stats.txResErr (isRaised .txResource) ∧
  counted Stats.txStall (isRaised .txStall) ∧ counted Stats.rxLenErr (isRaised .rxLength) ∧
  counted Stats.rxErr (isRaised .rxError) ∧ counted Stats.rxResErr (isRaised .rxResource) ∧
  counted Stats.rxDelivered isInbound ∧ counted Stats.resetCount isResetRaised

/-- Of the statistics only the two the PULLER can raise differ: the frames dropped at the gate and for want of a mapping
(R240, 41_transmit.md R177). -/
def OnlyPullCounts (t s : State) : Prop :=
  t.stats = { s.stats with txDrop := t.stats.txDrop, txResErr := t.stats.txResErr }

/-! ### Descriptor images (30_encoding.md R101, R104, R108; 41_transmit.md R172) -/

/-- The enqueue operation of an offload mode (41_transmit.md R162). -/
def txqOf : TsoMode → Instr
  | .none => .txqPlain
  | .tso4 => .txqTso4
  | .tso6 => .txqTso6

/-- One descriptor of a frame: its fields but the VLAN field, which all share, and the tracking entry of its slot. -/
structure Descriptor where
  len : Half
  cmd : Word
  addr : BitVec 64
  owner : Option Frame
  deriving DecidableEq, Repr

/-- The data descriptors of a frame: the last one alone carries EOP and the frame (R172, 10_state.md R48). -/
def dataDescriptors (c : Cfg) (f : Frame) (cmd : Word) : List Seg → List Descriptor
  | [] => []
  | [g] => [{ len := g.len, cmd := cmd ||| bitWord c.layout.eop, addr := g.addr, owner := some f }]
  | g :: h :: rest =>
    { len := g.len, cmd := cmd, addr := g.addr, owner := none } :: dataDescriptors c f cmd (h :: rest)

/-- All descriptors of a frame, the context descriptor of an IPv6 TSO frame first (30_encoding.md R103, R108). -/
def frameDescriptors (c : Cfg) (f : Frame) (segs : List Seg) (total : Option Word) : List Descriptor :=
  match total with
  | none => dataDescriptors c f (frameCmd c f) segs
  | some n =>
    { len := 0#16, cmd := frameCmd c f, addr := n.setWidth 64, owner := none } ::
      dataDescriptors c f (frameCmd c f) segs

/-- The bytes at `a` are the image of a descriptor with VLAN field `vt` (R101, little-endian). -/
def HoldsDescriptor (l : Layout) (m : Memory) (a : Addr) (vt : Half) (d : Descriptor) : Prop :=
  load16 m (fieldAddr a l.tpdLen) = d.len ∧ load16 m (fieldAddr a l.tpdVlan) = vt ∧
  load32 m (fieldAddr a l.tpdCmd) = d.cmd ∧ load64 m (fieldAddr a l.tpdAddr) = d.addr

/-- The address of the `j`-th transmit slot from the producer index on (40_rings.md R141). -/
def txSlot (s : State) (j : Nat) : Addr := tpdSlotAddr s.cfg s.tx.ringPhys (inc s.tx.next j s.cfg.nTx)

/-- The memory of that slot. -/
def txSlotRegion (s : State) (j : Nat) : Region := { base := txSlot s j, size := s.cfg.layout.tpdSize }

/-- `m2` is `m1`, what the arithmetic of a header fix-up leaves of host memory, but for the bytes of the header that are not the
frame's own, which are open (log entry 23). -/
def HeaderStored (s : State) (m : TsoMode) (segs : List Seg) (m1 m2 : Memory) : Prop :=
  (∀ a, a ∉ foreignHeader s m segs → readByte m2 a = readByte m1 a) ∧ (foreignHeader s m segs = [] → m2 = m1)

/-- `t` is `s` after frame `f` with offload mode `m` was put into descriptors and published (41_transmit.md R172, R173): the
descriptors stand at consecutive slots from the producer index, EOP and the frame on the last one only; the slots are
reserved; the index and the doorbell advance behind a fence, ahead of which the MAC does not see the doorbell (20_memory.md R89,
R91); memory outside those slots is `m1`, what the header fix-up left. -/
def Published (t s : State) (f : Frame) (m : TsoMode) (segs : List Seg) (m1 : Memory) (ctx : Option Word) : Prop :=
  t.result = .sent ∧ (frameDescriptors s.cfg f segs ctx).length = descNeed m segs ∧
  (∀ j d, (frameDescriptors s.cfg f segs ctx)[j]? = some d →
    HoldsDescriptor s.cfg.layout t.mem (txSlot s j) (vlanField s.cfg f.vlan) d ∧
    t.tx.mbuf[(inc s.tx.next j s.cfg.nTx).toNat]? = some d.owner) ∧
  (∀ i, (∀ j < descNeed m segs, i ≠ (inc s.tx.next j s.cfg.nTx).toNat) → t.tx.mbuf[i]? = s.tx.mbuf[i]?) ∧
  SameBytesOutside t (s.setMem m1) ((List.range (descNeed m segs)).map (txSlotRegion s)) ∧
  (m = .none → m1 = s.mem ∧ ctx = none) ∧
  t.tx.next = inc s.tx.next (descNeed m segs) s.cfg.nTx ∧
  t.tx.numFree = s.tx.numFree - BitVec.ofNat 32 (descNeed m segs) ∧
  t.tx.ringPhys = s.tx.ringPhys ∧ t.tx.dirty = s.tx.dirty ∧ t.tx.doneCount = s.tx.doneCount ∧
  t.tx.stalled = s.tx.stalled ∧ t.late = lateAfterBell s (fenced s.posted.length s.late) ∧ t.posted = postedAfter .tx s ∧
  t.mac = { s.mac with regs := { s.mac.regs with tpdPidx := t.tx.next } } ∧ t.stats = s.stats ∧ t.env = s.env ∧
  newActs t s = [.fence, .regWrite s.cfg.regmap.tpdPidx.offset s.cfg.regmap.tpdPidx.width (t.tx.next.setWidth 32)] ∧
  SameButTx t s

/-! ### Receive (42_receive.md, 43_buffer_pool.md) -/

/-- The address of the `j`-th completion descriptor from the walker's cursor on. -/
def rrdSlot (s : State) (j : Nat) : Addr := rrdSlotAddr s.cfg s.rx.rrdPhys (inc s.rx.next j s.cfg.nRrd)

/-- The address of the word of that descriptor that holds UPDATED. -/
def rrdFlag (s : State) (j : Nat) : Addr := fieldAddr (rrdSlot s j) s.cfg.layout.rrdW3

/-- The memory of that word. -/
def flagRegion (s : State) (j : Nat) : Region := { base := rrdFlag s j, size := 4 }

/-- The completion the walker will find `j` descriptors on. -/
def completionAt (s : State) (j : Nat) : Completion := readCompletion s.cfg s.mem (rrdSlot s j)

/-- The memory of the free descriptor of a slot. -/
def rfdRegion (s : State) (i : Half) : Region := { base := rfdSlot s i, size := 8 }

/-- The completion descriptor the MAC writes next. -/
def macRrd (s : State) : Region :=
  { base := macRrdAddr s, size := s.cfg.layout.rrdSize }

/-- What 10_state.md R58 asks of a frame of `len` bytes for the MAC to complete it. -/
def ReceiveEnabled (len : Nat) (s : State) : Prop :=
  s.mac.started = true ∧ s.cfg.crcLen ≤ len ∧ len ≤ 16383 ∧ 1 ≤ buffersFor len s.mac.conf.bufSize ∧
  buffersFor len s.mac.conf.bufSize ≤ 15 ∧
  buffersFor len s.mac.conf.bufSize ≤ dist s.mac.regs.rfdCons (bellSeen .rx s) s.mac.conf.nRfd ∧
  isUpdated s.cfg (load32 s.mem (fieldAddr (macRrdAddr s) s.cfg.layout.rrdW3)) = false

/-- The receive walker may run: enabled, its rings aligned, no other agent steps while it runs, and the MAC is none that never
stops (93_implementation_defined.md U22). -/
def DrainReady (s : State) : Prop :=
  s.flags.enabled = true ∧ aligned8 s.rx.rrdPhys = true ∧ aligned8 s.rx.rfdPhys = true ∧ s.env.during = [] ∧
  s.env.ceaseless = false

/-- The completion at the cursor is ready and meets the MAC contract (42_receive.md R192, 10_state.md R58). -/
def CompletionReady (s : State) : Prop :=
  isUpdated s.cfg (rrdFlagWord s) = true ∧ contractProblem (rrdCompletion s) s = none

/-- What the recycle step leaves, whatever became of the frame (42_receive.md R199). -/
def Recycled (t s : State) : Prop :=
  load32 t.mem (rrdFlagAddr s) = rrdFlagWord s &&& ~~~bitWord s.cfg.layout.updated ∧
  t.rx.next = inc s.rx.next 1 s.cfg.nRrd ∧
  t.rx.free = inc (rrdCompletion s).start (rrdCompletion s).count s.cfg.nRfd ∧
  t.mac.regs.rfdPidx = inc (rrdCompletion s).start ((rrdCompletion s).count - 1) s.cfg.nRfd

/-- What `refill_check` leaves of the refill flag (42_receive.md R201). -/
def refillFlag (c : Cfg) (p : Pool) : Bool := p.refillPending || decide (p.spare.length < c.spareLowWater)

/-! ### Schedules -/

/-- `k` watchdog ticks in a row. -/
def ticks : Nat → State → Out
  | 0, s => .next s
  | k + 1, s => andThen (exec .wdtTick s) (ticks k)

/-- How many descriptors a queue of plain frames needs (41_transmit.md R167). -/
def queueNeed (s : State) (q : List Frame) : Nat := (q.map fun f => ((sgMap s f).getD []).length).sum

/-- The PULLER takes no step inside the operation. -/
def NoPull (s : State) : Prop := ∀ l ∈ s.env.during, .pull ∉ l

/-- Regions an allocator can give one after another while those of `live` are given out. -/
def freshRegions (align : Nat) : List Region → List Region → Bool
  | [], _ => true
  | r :: rest, live => freeAmong align live r && freshRegions align rest (r :: live)

/-- The memory of buffers answered for posting or keeping spare. -/
def bufRegions (s : State) (bufs : List BufAnswer) : List Region := bufs.map (answerRegion s.cfg.rxBufSize)

/-- Answers that `BufAlloc(RX_BUF_SIZE)` can give one after another while the regions of `live` are given out, each of exactly
the size asked and none at address 0. -/
def RxAnswers (s : State) (live : List Region) (bufs : List BufAnswer) : Prop :=
  freshRegions s.cfg.bufAlign (bufRegions s bufs) live = true ∧ ∀ b ∈ bufs, b.extra = 0 ∧ b.phys ≠ 0#64

/-- The three regions of rings at `t`, `r`, `q`. -/
def ringsAt (c : Cfg) (t r q : Addr) : List Region :=
  [{ base := t, size := txBytes c }, { base := r, size := rrdBytes c }, { base := q, size := rfdBytes c }]

/-- Which tier of `acquire` serves a slot: a new buffer swapped in, a copy into a small one, or a spare (43_buffer_pool.md R221 to
R223), with the answer of the allocator that does. -/
inductive Tier where
  | replaced (a : BufAnswer)
  | copied (a : BufAnswer)
  | spare
  deriving DecidableEq, Repr

/-- What the allocator answers where that tier is the first that succeeds (R220). -/
def tierAnswers : Tier → List (Option BufAnswer)
  | .replaced a => [some a]
  | .copied a => [none, some a]
  | .spare => [none, none]

/-- The buffer the allocator gives for it. -/
def tierGiven : Tier → Option BufAnswer
  | .replaced a => some a
  | .copied a => some a
  | .spare => none

/-- A tier posts another buffer at the slot it serves (R221, R223). -/
def swapsIn (c : Cfg) : Tier → Bool
  | .replaced _ => true
  | .copied _ => false
  | .spare => c.spareMode == .swapInSpare

/-- The buffers the allocator gives for the full slots of a chain, in slot order. -/
def chainGiven (ts : List Tier) : List BufAnswer := ts.filterMap tierGiven

/-- Answers the allocator can give for the full slots of a chain one after another: none where another region is given out or a
frame is in flight, and each one to be posted of exactly the size asked and not at address 0 (43_buffer_pool.md R230). -/
def ChainAnswers (s : State) (ts : List Tier) : Prop :=
  freshRegions s.cfg.bufAlign (bufRegions s (chainGiven ts)) (takenRegions s) = true ∧
  ∀ a, .replaced a ∈ ts → a.extra = 0 ∧ a.phys ≠ 0#64

/-- What becomes of the `i`-th slot of a chain, full and with buffer `b`, when the tiers serve the slots as listed: `got` joins
the chain and `now` stays posted (R221 to R223). -/
def SlotServed (s : State) (ts : List Tier) (i : Nat) (b got now : Buf) : Tier → Prop
  | .replaced a =>
    got = { b with len := s.cfg.rxBufSize } ∧ now.id = s.env.nextBuf + (chainGiven (ts.take i)).length ∧ now.phys = a.phys ∧
      FitBuf s.cfg now
  | .copied a =>
    now = b ∧ got.id = s.env.nextBuf + (chainGiven (ts.take i)).length ∧ got.phys = a.phys ∧
      got.cap = s.cfg.rxBufSize + a.extra ∧ got.len = s.cfg.rxBufSize
  | .spare =>
    ∃ p, s.pool.spare[(ts.take i).count .spare]? = some p ∧
      match s.cfg.spareMode with
      | .copyIntoSpare => got = { p with len := s.cfg.rxBufSize } ∧ now = b
      | .swapInSpare => got = { b with len := s.cfg.rxBufSize } ∧ now = p

/-- The answers that let `RING.SETUP` succeed while the regions of `live` are given out: three regions, a buffer for every free
slot, and a buffer for every spare or for fewer, the next allocation failing (40_rings.md R145 step 5, 43_buffer_pool.md
R228). -/
def SetupAnswers (s : State) (live : List Region) (t r q : Addr) (dmaRest : List (Option Addr)) (bufs : List BufAnswer)
    (allocRest : List (Option BufAnswer)) : Prop :=
  s.env.dma = some t :: some r :: some q :: dmaRest ∧ s.cfg.nRfd ≤ bufs.length ∧
  (bufs.length = s.cfg.nRfd + s.cfg.spareCap ∧ s.env.alloc = bufs.map some ++ allocRest ∨
    bufs.length < s.cfg.nRfd + s.cfg.spareCap ∧ s.env.alloc = bufs.map some ++ none :: allocRest) ∧
  freshRegions s.cfg.ringAlign (ringsAt s.cfg t r q) live = true ∧
  RxAnswers s ((ringsAt s.cfg t r q).reverse ++ live) bufs

/-- The descriptors of rings at `t`, `r`, `q`. -/
def ringSlots (c : Cfg) (t r q : Addr) : List Region :=
  slotRegions t c.layout.tpdSize c.nTx ++ slotRegions r c.layout.rrdSize c.nRrd ++ slotRegions q c.layout.rfdSize c.nRfd

/-- The late stores once the transmit ring has been cleared and then others among the descriptors of the rings (20_memory.md
R88). -/
def heldAfterClear (slots : List Region) (s : State) : List LateStore :=
  held slots { s with mem := zeroRange s.mem s.tx.ringPhys (txBytes s.cfg), late := held (txSlots s) s }

/-- The late stores once a MAC reset has let every posted doorbell write arrive and `RFD_PIDX` is then written with no fence
between (20_memory.md R88, R91). -/
def lateAfterReset (s : State) (l : List LateStore) : List LateStore := if s.env.slowBus then l else lateAfter 1 l

/-- The posted doorbell writes then. -/
def postedAfterReset (s : State) : List Posted := if s.env.slowBus then [{ bell := .rx, before := 0#16 }] else []

/-- All the memory a setup over these answers takes. -/
def setupRegions (s : State) (t r q : Addr) (bufs : List BufAnswer) : List Region :=
  ringsAt s.cfg t r q ++ bufRegions s bufs

/-- The memory a teardown gives back: every buffer the core holds, and the three rings. -/
def freedRegions (s : State) : List Region := heldRegions s ++ ringRegions s

/-- Column (b) of 10_state.md R54 for the rings and the pool, over regions at `t`, `r`, `q` and the buffers answered: empty
transmit side, posted buffers with their addresses in the free ring, a spare for every buffer answered besides, zeroed
descriptor rings. -/
def FreshRings (u s : State) (live : List Region) (t r q : Addr) (bufs : List BufAnswer) : Prop :=
  u.tx = { s.tx with
    ringPhys := t, next := 0#16, dirty := 0#16, numFree := BitVec.ofNat 32 s.cfg.nTx, stalled := false,
    mbuf := List.replicate s.cfg.nTx none } ∧
  u.rx.rrdPhys = r ∧ u.rx.rfdPhys = q ∧ u.rx.next = 0#16 ∧ u.rx.free = 0#16 ∧ u.rx.mbuf.length = s.cfg.nRfd ∧
  (∀ i < s.cfg.nRfd, ∃ b, u.rx.mbuf[i]? = some (some b) ∧ FitBuf s.cfg b ∧
    (bufs.map BufAnswer.phys)[i]? = some b.phys ∧ load64 u.mem (rfdSlot u (BitVec.ofNat 16 i)) = b.phys) ∧
  u.pool.spare.map Buf.phys = (bufs.drop s.cfg.nRfd).map BufAnswer.phys ∧ (∀ b ∈ u.pool.spare, FitBuf s.cfg b) ∧
  u.pool.refillPending = false ∧ ZeroBytes u.mem t (txBytes s.cfg) ∧ ZeroBytes u.mem r (rrdBytes s.cfg) ∧
  u.env.live = (setupRegions s t r q bufs).reverse ++ live

/-- Nothing of the rings and the pool is left (40_rings.md R146). -/
def NoRings (u : State) : Prop :=
  u.flags.ringsUp = false ∧ u.tx.mbuf = [] ∧ u.rx.mbuf = [] ∧ u.pool.spare = [] ∧ u.pool.refillPending = false ∧
  u.tx.next = 0#16 ∧ u.tx.dirty = 0#16 ∧ u.tx.stalled = false ∧ u.rx.next = 0#16 ∧ u.rx.free = 0#16

/-- The device registers after a MAC reset, with the receive window offered and a mask written (70_reset_and_hazards.md R282). -/
def freshRegs (c : Cfg) (mask : Word) : DeviceRegs :=
  { DeviceRegs.zero with rfdPidx := BitVec.ofNat 16 (c.nRfd - 1), imr := mask }

end Sys2Proof.Machine
end

