-- ==== Sys2Proof/Certificates/Slice0/Obligations.lean ====
section
/-! DEFINITION. The statements for the provers, in the order of OBLIGATIONS.json. Where a hypothesis speaks of `s.env`, it says
what the environment will answer (00_scope.md R15) or that no other agent steps inside the operation (`s.env.during = []`);
statements without such a hypothesis hold for every answer and every interleaving. `result` and `trace` are the model's
observers of what an operation answers and does (log entry 7). -/

open Sys2Proof Sys2Proof.Machine

/-! ### Operation words (30_encoding.md) -/

/-- R130 to R132: the decoder reads an operation from a word exactly when the word is the one the encoder writes for it. -/
def Obligations.DecodeIsTheInverseOfEncode : Prop :=
  ∀ (i : Instr) (w : Word), decode w = .ok i ↔ w = encode i

/-- The words written out in R133 and in 95_test_vectors.md W1 to W22, W31, W32. -/
def Obligations.WordsOfTheSpecDecode : Prop :=
  decode 0x00000001#32 = .ok .ringSetup ∧ decode 0x00000002#32 = .ok .ringTeardown ∧
  decode 0x00000003#32 = .ok .txClear ∧ decode 0x00000004#32 = .ok .rxReset ∧
  decode 0x00000010#32 = .ok .txqPlain ∧ decode 0x00000011#32 = .ok .txqTso4 ∧
  decode 0x00000012#32 = .ok .txqTso6 ∧ decode 0x00000013#32 = .ok .txPull ∧
  decode 0x00000014#32 = .ok .txReclaim ∧ decode 0x00001020#32 = .ok (.rxDrain 16#24) ∧
  decode 0xFFFFFF20#32 = .ok (.rxDrain 0xFFFFFF#24) ∧ decode 0x00000030#32 = .ok .poolRefill ∧
  decode 0x00000040#32 = .ok .irqDispatch ∧ decode 0x00000841#32 = .ok (.pollService 8#24) ∧
  decode 0x00000142#32 = .ok (.pollMode true) ∧ decode 0x00000042#32 = .ok (.pollMode false) ∧
  decode 0x00000043#32 = .ok .wdtTick ∧ decode 0x00000044#32 = .ok .linkUp ∧ decode 0x00000045#32 = .ok .linkDown ∧
  decode 0x00000046#32 = .ok .devReset ∧ decode 0x00000047#32 = .ok .devEnable ∧
  decode 0x00000048#32 = .ok .devDisable ∧ decode 0x00000F49#32 = .ok (.mediumSelect 0x0F#5) ∧
  decode 0x00000249#32 = .ok (.mediumSelect 0x02#5) ∧ decode 0x00000049#32 = .ok (.mediumSelect 0x00#5)

/-- R132: an illegal word is refused and changes nothing; a malformed or invalid medium is besides reported as a failed
administrative operation. -/
def Obligations.IllegalWordsAreRefused : Prop :=
  ∀ (s : State) (r : Request) (rest : List Event), s.cfg.valid = true → s.pending = .op r :: rest →
    (IllegalWord r.word →
      step s = .next { s with pending := rest, frameArg := r.frame, linkArg := r.link, result := .refused }) ∧
    (IllegalMedium r.word →
      step s = .next { s with
        pending := rest, frameArg := r.frame, linkArg := r.link, result := .fail,
        trace := .raised .cfgInvalidMedium :: s.trace })

/-- A step on a request runs the decoded operation, with the request taken off the schedule and its out-of-band operands in
place (30_encoding.md R130). With nothing scheduled the machine's own agents run: an asserted interrupt line of an enabled
interface its dispatch (10_state.md R59, 60_exceptions.md R248), else a scheduled refill (43_buffer_pool.md R232), else the
PULLER goes on with the `TX.PULL` it is in, or begins one that is due (41_transmit.md R177), else nothing. A scheduled step of
the PULLER is one access of its `TX.PULL` (R183). The schedule and the order of the three are the model's convention, log entry
6. -/
def Obligations.RequestStepRunsItsOperation : Prop :=
  ∀ s : State, s.cfg.valid = true →
    (∀ r rest i, s.pending = .op r :: rest → decode r.word = .ok i →
      step s = exec i { s with pending := rest, frameArg := r.frame, linkArg := r.link }) ∧
    (∀ rest, s.pending = .pull :: rest → step s = pullTurn { s with pending := rest }) ∧
    (s.pending = [] →
      let asserted := s.flags.enabled = true ∧ s.mac.regs.isr &&& s.mac.regs.imr ≠ 0#32 ∧
        s.mac.regs.isr &&& s.cfg.isr.dis = 0#32
      let work := s.cfg.txSched = .pull ∧ (s.env.resumable = true ∨ s.env.offered = true ∧ s.env.outbound ≠ [])
      (asserted → step s = exec .irqDispatch s) ∧
      (¬asserted → s.pool.refillPending = true → step s = exec .poolRefill s) ∧
      (¬asserted → s.pool.refillPending = false → s.puller ≠ .idle → step s = finishPull s) ∧
      (¬asserted → s.pool.refillPending = false → s.puller = .idle → work → step s = exec .txPull s) ∧
      (¬asserted → s.pool.refillPending = false → s.puller = .idle → ¬work → step s = .next s))

/-- R286: a configuration that violates the constraints is refused. -/
def Obligations.UnusableConfigurationIsRefused : Prop :=
  ∀ s : State, ¬ConstraintsHold s.cfg → step s = .refused .invalidConfig

/-! ### Ring arithmetic, byte order, registers, events -/

/-- R140, with R16's reading of `inc` and `dist` as sums and differences modulo the ring length. -/
def Obligations.RingIndexLaws : Prop :=
  ∀ (e : Nat) (i : Half), e ≤ 16 → i.toNat < 2 ^ e →
    inc i 0 (2 ^ e) = i ∧ (∀ a b, inc (inc i a (2 ^ e)) b (2 ^ e) = inc i (a + b) (2 ^ e)) ∧
    inc i (2 ^ e) (2 ^ e) = i ∧ inc (BitVec.ofNat 16 (2 ^ e - 1)) 1 (2 ^ e) = 0#16 ∧
    (∀ k, (inc i k (2 ^ e)).toNat = (i.toNat + k) % 2 ^ e) ∧
    (∀ k, k < 2 ^ e → Machine.dist i (inc i k (2 ^ e)) (2 ^ e) = k)

/-- 20_memory.md R73: a 16-, 32- or 64-bit store writes the little-endian image of its value and no other byte. -/
def Obligations.StoresAreLittleEndian : Prop :=
  ∀ (m : Memory) (a b : Addr), Memory.wf m = true →
    (∀ v : Half, readByte (store16 m a v) b =
      if inRange a 2 b then v.extractLsb' (8 * (b - a).toNat) 8 else readByte m b) ∧
    (∀ v : Word, readByte (store32 m a v) b =
      if inRange a 4 b then v.extractLsb' (8 * (b - a).toNat) 8 else readByte m b) ∧
    (∀ v : BitVec 64, readByte (store64 m a v) b =
      if inRange a 8 b then v.extractLsb' (8 * (b - a).toNat) 8 else readByte m b)

/-- The register interface (20_memory.md R72, R76, R80; 10_state.md R44): an access at a register's offset and width
reaches it, another width or offset is refused, and a write to `ISR` acknowledges the bits written 1 and replaces
`DIS`. The refusals of another width or offset carry names of the model. -/
def Obligations.RegisterInterfaceReachesFiveRegisters : Prop :=
  ∀ (s : State) (r : Reg) (v : Word), s.cfg.regmap.valid = true →
    busWrite (regInfo s.cfg r).offset (regInfo s.cfg r).width v s = .next (regWrite r v s) ∧
    busRead (regInfo s.cfg r).offset (regInfo s.cfg r).width s = .ok (regRead r s) ∧
    (∀ n, n ≠ (regInfo s.cfg r).width → busWrite (regInfo s.cfg r).offset n v s = .refused .registerWidth ∧
      busRead (regInfo s.cfg r).offset n s = .error .registerWidth) ∧
    (∀ o n, (∀ q, (regInfo s.cfg q).offset ≠ o) → busWrite o n v s = .refused .noSuchRegister ∧
      busRead o n s = .error .noSuchRegister) ∧
    (∀ i, (regRead .isr (regWrite .isr v s)).getLsbD i =
      if s.cfg.isr.dis.getLsbD i then v.getLsbD i else s.mac.regs.isr.getLsbD i && !v.getLsbD i) ∧
    regRead .imr (regWrite .imr v s) = v ∧
    regRead .tpdPidx (regWrite .tpdPidx v s) = (v.setWidth 16).setWidth 32 ∧
    regRead .rfdPidx (regWrite .rfdPidx v s) = (v.setWidth 16).setWidth 32 ∧
    regRead .tpdCidx (regWrite r v s) = regRead .tpdCidx s ∧
    (∀ q, q ≠ r → regRead q (regWrite r v s) = regRead q s)

/-- R240, R242: raising an event adds 1 to its counter and records nothing else, saves no state and changes no mode. -/
def Obligations.EventsOnlyCount : Prop :=
  ∀ s : State,
    raise .txDropGate s = { s with
      stats := { s.stats with txDrop := s.stats.txDrop + 1 }, trace := .raised .txDropGate :: s.trace } ∧
    raise .txResource s = { s with
      stats := { s.stats with txResErr := s.stats.txResErr + 1 }, trace := .raised .txResource :: s.trace } ∧
    raise .txStall s = { s with
      stats := { s.stats with txStall := s.stats.txStall + 1 }, trace := .raised .txStall :: s.trace } ∧
    raise .rxLength s = { s with
      stats := { s.stats with rxLenErr := s.stats.rxLenErr + 1 }, trace := .raised .rxLength :: s.trace } ∧
    raise .rxError s = { s with
      stats := { s.stats with rxErr := s.stats.rxErr + 1 }, trace := .raised .rxError :: s.trace } ∧
    raise .rxResource s = { s with
      stats := { s.stats with rxResErr := s.stats.rxResErr + 1 }, trace := .raised .rxResource :: s.trace } ∧
    raise .hwDeadlock s = { s with
      stats := { s.stats with resetCount := s.stats.resetCount + 1 }, trace := .raised .hwDeadlock :: s.trace } ∧
    raise .hwFatal s = { s with
      stats := { s.stats with resetCount := s.stats.resetCount + 1 }, trace := .raised .hwFatal :: s.trace } ∧
    raise .cfgSetupFail s = { s with trace := .raised .cfgSetupFail :: s.trace } ∧
    raise .cfgTimeout s = { s with trace := .raised .cfgTimeout :: s.trace } ∧
    raise .cfgInvalidMedium s = { s with trace := .raised .cfgInvalidMedium :: s.trace }

/-! ### Transmit (41_transmit.md) -/

/-- R163, R164: the command word with the default positions of R102 and the default header offsets. -/
def Obligations.CommandWordOfAFrame : Prop :=
  ∀ (c : Cfg) (f : Frame), c.layout = Layout.default → c.minL4OffV4 = 34 → c.minL4OffV6 = 54 →
    let vl : Word := if f.vlan.isSome then 0x00008000#32 else 0#32
    let mss : Word := (f.mss.setWidth 32 &&& 0x1FFF#32) <<< 18
    (f.tsoMode = .tso4 → frameCmd c f = 0x00011022#32 ||| mss ||| vl) ∧
    (f.tsoMode = .tso6 → frameCmd c f = 0x00003036#32 ||| mss ||| vl) ∧
    (f.tsoMode = .none → frameCmd c f =
      (if f.csumReq.getLsbD 1 then 0x00010622#32
      else if f.csumReq.getLsbD 2 then 0x00010A22#32
      else if f.csumReq.getLsbD 0 then 0x00010222#32
      else if f.csumReq.getLsbD 3 then 0x00000436#32
      else if f.csumReq.getLsbD 4 then 0x00000836#32
      else 0#32) ||| vl)

/-- R169, R171: the IPv4 fix-up folds the payload length into the TCP checksum and touches no other byte; the fold is
one's-complement subtraction with end-around borrow. -/
def Obligations.Tso4FixAdjustsTheChecksum : Prop :=
  (∀ c l : Half, fold c l = if l ≤ c then c - l else c - l - 1#16) ∧
  ∀ (m : Memory) (segs : List Seg) (b14 : Byte) (tot sum : Half) (off : Nat) (hi lo : Addr), Memory.wf m = true →
    frameByte m segs 14 = some b14 → netRead16 m segs 16 = some tot → off = 14 + 4 * (b14.toNat % 16) + 16 →
    netRead16 m segs off = some sum → frameAddr segs off = some hi → frameAddr segs (off + 1) = some lo → hi ≠ lo →
    ∃ m1, tso4Fix m segs = some m1 ∧
      netRead16 m1 segs off = some (fold sum (tot - BitVec.ofNat 16 (4 * (b14.toNat % 16)))) ∧
      ∀ a, a ≠ hi → a ≠ lo → readByte m1 a = readByte m a

/-- R170: the IPv6 fix-up folds the checksum, zeroes the payload-length field, and returns the total from which the payload
length can be recovered. -/
def Obligations.Tso6FixStashesTheLength : Prop :=
  ∀ (c : Cfg) (m : Memory) (segs : List Seg) (plen sum : Half) (off : Nat) (p q hi lo : Addr), Memory.wf m = true →
    off = c.minL4OffV6 + 16 → netRead16 m segs 18 = some plen → netRead16 m segs off = some sum →
    frameAddr segs 18 = some p → frameAddr segs 19 = some q →
    frameAddr segs off = some hi → frameAddr segs (off + 1) = some lo → [p, q, hi, lo].Nodup →
    ∃ m1 total, tso6Fix c m segs = some (m1, total) ∧
      total = plen.setWidth 32 + BitVec.ofNat 32 c.minL4OffV6 ∧
      total - BitVec.ofNat 32 c.minL4OffV6 = plen.setWidth 32 ∧
      netRead16 m1 segs off = some (fold sum plen) ∧ netRead16 m1 segs 18 = some 0#16 ∧
      ∀ a, a ∉ [p, q, hi, lo] → readByte m1 a = readByte m a

/-- R161: with the link down or the interface disabled the frame is dropped, counted and released, and nothing else is
touched, for each of the three enqueue operations. -/
def Obligations.GateClosedDropsTheFrame : Prop :=
  ∀ (m : TsoMode) (s : State), s.puller = .idle → s.frameArg.tsoMode = m →
    (m = .none ∨ mssInRange s.cfg s.frameArg.mss = true) →
    ¬(s.flags.enabled = true ∧ s.flags.linkUp = true) →
    exec (txqOf m) s = .next { s with
      stats := { s.stats with txDrop := s.stats.txDrop + 1 }, result := .droppedGate,
      trace := .release s.frameArg false :: .raised .txDropGate :: s.trace }

/-- R166, R168: a frame that cannot be mapped is dropped with its event; a frame for which room is short is left with the
caller, the stall flagged and counted. Neither touches a descriptor, an index, a register or a byte of the frame. The stall is
the push model's rule; that a `TXQ` operation requested on its own makes the room test under either `TX_SCHED`, as this is
stated, is the model's choice, log entry 14. -/
def Obligations.RefusedFramesLeaveTheRing : Prop :=
  ∀ (m : TsoMode) (s : State), s.puller = .idle → s.frameArg.tsoMode = m →
    (m = .none ∨ mssInRange s.cfg s.frameArg.mss = true) → s.flags.enabled = true → s.flags.linkUp = true →
    (sgMap s s.frameArg = none ∨ sgMap s s.frameArg = some [] →
      exec (txqOf m) s = .next { s with
        stats := { s.stats with txResErr := s.stats.txResErr + 1 }, result := .droppedResource,
        trace := .release s.frameArg false :: .raised .txResource :: s.trace }) ∧
    (∀ segs, sgMap s s.frameArg = some segs → segs ≠ [] →
      s.tx.numFree.toInt - descNeed m segs < s.cfg.txSafetyMargin →
      exec (txqOf m) s = .next { s with
        tx := { s.tx with stalled := true }, stats := { s.stats with txStall := s.stats.txStall + 1 }, result := .stall,
        trace := .raised .txStall :: .sgUnmap s.frameArg :: s.trace })

/-- R172 to R176: an accepted frame becomes its descriptors at consecutive slots from the producer index, EOP and the frame on
the last only, the context descriptor first for IPv6 TSO; the slots are reserved, the index and the doorbell advance behind a
fence; memory outside those slots is what the header fix-up left (all of memory as it was, without TSO). When the doorbell and
the stores ahead of the fence reach the MAC (20_memory.md R89, R91) is log entry 11. A byte of the header that stands in memory
which is not the frame's own (`foreignHeader`: a ring, a held buffer, a frame in flight) is open after the fix-up, and every such
byte is counted: the model's choice, log entry 23. -/
def Obligations.EnqueuePublishesTheFrame : Prop :=
  ∀ (m : TsoMode) (s : State) (segs : List Seg) (m1 : Memory) (ctx : Option Word),
    s.puller = .idle → s.frameArg.tsoMode = m → (m = .none ∨ mssInRange s.cfg s.frameArg.mss = true) →
    s.flags.enabled = true → s.flags.linkUp = true → sgMap s s.frameArg = some segs → segs ≠ [] →
    (s.cfg.txSafetyMargin : Int) ≤ s.tx.numFree.toInt - descNeed m segs → aligned8 s.tx.ringPhys = true →
    headerFix s.cfg m s.mem segs = some (m1, ctx) → s.cfg.valid = true → Memory.wf s.mem = true →
    s.tx.next.toNat < s.cfg.nTx → s.tx.mbuf.length = s.cfg.nTx →
    ∃ t m2, exec (txqOf m) s = .next t ∧ HeaderStored s m segs m1 m2 ∧ Published t s s.frameArg m segs m2 ctx ∧
      t.foreign = s.foreign + (foreignHeader s m segs).length

/-- R177: `TX.PULL` stops before dequeuing when the free count is below the reserve, counting no stall; with the gate
closed it drops and counts every queued frame and touches nothing else. While one is in progress, an enqueue or another
`TX.PULL` waits for its end: there is one producer (20_memory.md R85). That the rule runs whatever `TX_SCHED` says is the
model's choice, log entry 14, and so is the waiting, log entry 11. -/
def Obligations.PullStopsOrDropsTheQueue : Prop :=
  ∀ s : State, s.env.during = [] →
    (∀ i, i = .txPull ∨ (∃ m, i = txqOf m) → exec i s = andThen (finishPull s) (exec i)) ∧
    (s.puller = .idle → s.tx.numFree.toInt < s.cfg.pullReserve →
      exec .txPull s = .next { s with
        tx := { s.tx with stalled := true }, env := { s.env with resumable := false, offered := false },
        result := .returned }) ∧
    (s.puller = .idle → (s.cfg.pullReserve : Int) ≤ s.tx.numFree.toInt → ¬(s.flags.enabled = true ∧ s.flags.linkUp = true) →
      (∀ f ∈ s.env.outbound, f.tsoMode = .none ∨ mssInRange s.cfg f.mss = true) →
      ∃ t, exec .txPull s = .next t ∧
        t.stats = { s.stats with txDrop := s.stats.txDrop + s.env.outbound.length } ∧
        t.env = { s.env with outbound := [], resumable := false, offered := false } ∧
        t.tx = s.tx ∧ t.mem = s.mem ∧ t.late = s.late ∧ t.posted = s.posted ∧ t.mac = s.mac ∧
        t.puller = .idle ∧
        (newActs t s).filter isRelease = s.env.outbound.map (.release · false) ∧
        t.rx = s.rx ∧ t.pool = s.pool ∧ t.flags = s.flags ∧ t.wdt = s.wdt ∧ t.link = s.link ∧
        t.medium = s.medium ∧ t.intrMask = s.intrMask ∧ t.cfg = s.cfg ∧ t.foreign = s.foreign ∧ t.result = .returned)

/-- R177: with the gate open and room above the reserve, one turn of `TX.PULL` takes the frame at the head of the queue, of
whatever offload mode, puts it into descriptors and publishes it, and goes on from there; so with room for them all it sends
every queued plain frame, each with one doorbell, and leaves the stall flag alone. That the rule runs whatever `TX_SCHED` says
is the model's choice, log entry 14; when the doorbells and the stores ahead of their fences reach the MAC (20_memory.md R89, R91)
is log entry 11; what the fix-up leaves of a header in memory that is not the frame's own is log entry 23. -/
def Obligations.PullSendsTheQueue : Prop :=
  ∀ s : State, s.env.during = [] → s.puller = .idle → s.cfg.valid = true → s.flags.enabled = true → s.flags.linkUp = true →
    aligned8 s.tx.ringPhys = true → s.tx.next.toNat < s.cfg.nTx →
    (∀ f rest segs m1 ctx, s.env.outbound = f :: rest → (s.cfg.pullReserve : Int) ≤ s.tx.numFree.toInt →
      (f.tsoMode = .none ∨ mssInRange s.cfg f.mss = true) → sgMap s f = some segs → segs ≠ [] →
      headerFix s.cfg f.tsoMode s.mem segs = some (m1, ctx) → Memory.wf s.mem = true → s.tx.mbuf.length = s.cfg.nTx →
      ∃ u m2, HeaderStored s f.tsoMode segs m1 m2 ∧
        Published u { s with env := { s.env with outbound := rest, resumable := false, offered := false } } f f.tsoMode
          segs m2 ctx ∧
        u.foreign = s.foreign + (foreignHeader s f.tsoMode segs).length ∧ exec .txPull s = exec .txPull u) ∧
    ((∀ f ∈ s.env.outbound, f.tsoMode = .none ∧ ∃ g rest, sgMap s f = some (g :: rest)) →
      (s.cfg.pullReserve : Int) + queueNeed s s.env.outbound ≤ s.tx.numFree.toInt →
      ∃ t, exec .txPull s = .next t ∧ t.result = .returned ∧ t.puller = .idle ∧
        t.env = { s.env with outbound := [], resumable := false, offered := false } ∧
        t.tx.next = inc s.tx.next (queueNeed s s.env.outbound) s.cfg.nTx ∧
        t.tx.numFree = s.tx.numFree - BitVec.ofNat 32 (queueNeed s s.env.outbound) ∧
        t.tx.ringPhys = s.tx.ringPhys ∧ t.tx.dirty = s.tx.dirty ∧ t.tx.doneCount = s.tx.doneCount ∧
        t.tx.stalled = s.tx.stalled ∧
        t.late = (if s.env.outbound = [] then s.late
          else if s.env.slowBus then fenced s.posted.length s.late
          else lateAfter (s.posted.length + s.env.outbound.length) (fenced s.posted.length s.late)) ∧
        t.posted = (if s.env.slowBus then s.posted ++ (List.range s.env.outbound.length).map (fun j =>
            { bell := .tx, before := if j = 0 then s.mac.regs.tpdPidx
              else inc s.tx.next (queueNeed s (s.env.outbound.take j)) s.cfg.nTx })
          else if s.env.outbound = [] then s.posted else []) ∧
        countActs (isWriteTo s.cfg.regmap.tpdPidx.offset) t =
          countActs (isWriteTo s.cfg.regmap.tpdPidx.offset) s + s.env.outbound.length ∧
        t.mac = { s.mac with regs := { s.mac.regs with
          tpdPidx := if s.env.outbound = [] then s.mac.regs.tpdPidx else t.tx.next } } ∧
        (Memory.wf s.mem = true → SameBytesOutside t s [{ base := s.tx.ringPhys, size := txBytes s.cfg }]) ∧
        t.stats = s.stats ∧ t.rx = s.rx ∧ t.pool = s.pool ∧ t.flags = s.flags ∧ t.wdt = s.wdt ∧ t.link = s.link ∧
        t.medium = s.medium ∧ t.intrMask = s.intrMask ∧ t.cfg = s.cfg ∧ t.foreign = s.foreign)

/-- The interleavings the spec says a model must admit. 70_reset_and_hazards.md R296, the lost wake-up of the pull model: the
PULLER has read a free count below the reserve, a reclaim frees the ring and finds the queue not stalled, and the PULLER then
marks it stalled: room above the wake threshold, frames queued, no signal, and nothing that starts the PULLER again. R183: the
PULLER reads the counter between two adds of one reclaim; with the reserve reached only by the first of two slots reclaimed, it
sends one of two queued frames. And the accesses of the stall flag are plain: between the test of `wake` and its clearing the
PULLER sends down to below the reserve and flags the stall, which the clearing undoes. R17: a `LINK.DOWN` in progress has closed
the gate, and the PULLER drops and counts two queued frames before the flush. 20_memory.md R88, right after a `DEV.ENABLE`: the
zeroing of a completion descriptor reaches the MAC after it completed a frame there, and neither side sees the completion any
more; and the MAC reads a free descriptor as it was before the ring was set up, and fills another posted buffer, after a
`DEV.RESET` too, which built the rings anew where they were. R89 and R91: it does so still after a `TXQ` whose doorbell has not
reached it, though an `RX.DRAIN` between found nothing, and the next one finds the frame. Where another agent may step, and
which stores can be late, is the model's choice, log entry 11. -/
def Obligations.LostWakeUpIsAdmitted : Prop :=
  (∃ s u t : State, s.cfg.valid = true ∧ s.cfg.txSched = .pull ∧ TxSound s ∧ s.env.during = [] ∧ s.tx.stalled = false ∧
    s.env.resumable = false ∧ s.puller = .saw s.tx.numFree ∧ belowReserve s.tx.numFree s.cfg = true ∧
    exec .txReclaim s = .next u ∧ pullTurn u = .next t ∧ TxSound t ∧ t.puller = .idle ∧ t.tx.stalled = true ∧
    (wakeThreshold t.cfg : Int) < t.tx.numFree.toInt ∧ t.env.outbound ≠ [] ∧ t.env.resumable = false ∧ pullDue t = false) ∧
  (∃ s t : State, s.cfg.valid = true ∧ s.cfg.txSched = .pull ∧ TxSound s ∧ s.puller = .looping ∧
    s.tx.numFree.toInt + 1 = s.cfg.pullReserve ∧ Machine.dist s.tx.dirty (hwConsumer s) s.cfg.nTx = 2 ∧
    s.env.outbound.length = 2 ∧ (∀ f ∈ s.env.outbound, (sgMap s f).map List.length = some 1) ∧
    s.env.during = [List.replicate 5 .pull] ∧
    exec .txReclaim s = .next t ∧ TxSound t ∧ t.env.outbound.length = 1 ∧ t.puller = .idle ∧
    t.tx.dirty = inc s.tx.dirty 2 s.cfg.nTx ∧ t.tx.numFree = s.tx.numFree + 1#32) ∧
  (∃ (s t : State) (k : Nat), s.cfg.valid = true ∧ s.cfg.txSched = .pull ∧ TxSound s ∧ s.puller = .looping ∧
    s.tx.stalled = true ∧ Machine.dist s.tx.dirty (hwConsumer s) s.cfg.nTx = 1 ∧
    s.env.during = [[], List.replicate k .pull] ∧ exec .txReclaim s = .next t ∧ TxSound t ∧
    t.puller = .idle ∧ t.tx.stalled = false ∧ belowReserve t.tx.numFree t.cfg = true ∧ t.env.outbound ≠ []) ∧
  (∃ s t : State, s.cfg.valid = true ∧ s.cfg.txSched = .pull ∧ Sound s ∧ s.flags.linkUp = true ∧ s.puller = .looping ∧
    s.env.outbound.length = 2 ∧ s.env.during = [List.replicate 6 .pull] ∧ exec .linkDown s = .next t ∧ t.result = .ok ∧
    t.stats.txDrop = s.stats.txDrop + 2) ∧
  (∃ (u s : State) (bytes : List Byte) (info : RxMeta), u.cfg.valid = true ∧ exec .devEnable u = .next s ∧
    let s1 := macStep (.reach 1) (macStep (.arrive { base := s.rx.rfdPhys, size := rfdBytes s.cfg }) s)
    let s2 := macStep (.rx bytes info false) s1
    let s3 := macStep (.arrive (macRrd s1)) s2
    macRxReady bytes.length s1 = true ∧ s3.mac.regs.rrdProd = 1#16 ∧
    isUpdated s.cfg (load32 s3.mem (rrdFlag s 0)) = false ∧ isUpdated s.cfg (load32 (macView s3) (rrdFlag s 0)) = false) ∧
  ∀ i : Instr, i = .devEnable ∨ i = .devReset →
    ∃ (u s v w x : State) (bytes : List Byte) (info : RxMeta) (b0 b1 : Buf), u.cfg.valid = true ∧ Sound u ∧ exec i u = .next s ∧
      s.result = .ok ∧ (i = .devReset → s.rx.rfdPhys = u.rx.rfdPhys) ∧
      s.rx.mbuf[0]? = some (some b0) ∧ s.rx.mbuf[1]? = some (some b1) ∧ b0.phys ≠ b1.phys ∧ bytes ≠ [] ∧
      let zeros := macStep (.arrive { base := s.rx.rrdPhys, size := rrdBytes s.cfg })
      let s1 := macStep (.reach 1) (zeros (zeros s))
      exec .linkUp s1 = .next v ∧ exec .txqPlain v = .next w ∧ w.result = .sent ∧ exec (.rxDrain 16#24) w = .next x ∧
      x.result = .count 0 ∧
      ∀ y, y = s1 ∨ y = x →
        let t := macStep (.rx bytes info false) y
        macRxReady bytes.length y = true ∧ y.rx.mbuf = s.rx.mbuf ∧ readBytes t.mem b1.phys bytes.length = bytes ∧
        readBytes t.mem b0.phys bytes.length = readBytes s.mem b0.phys bytes.length ∧
        ∃ z, exec (.rxDrain 16#24) t = .next z ∧ z.result = .count 1

/-- R180 to R182: reclaim walks from the dirty index to the hardware consumer index, releasing each frame as sent at its own
slot, counts every slot, and wakes a stalled queue once the free count is above a quarter of the ring; no byte of memory and no
register is written. -/
def Obligations.ReclaimReleasesCompletedSlots : Prop :=
  ∀ (s : State) (n : Nat), s.env.during = [] → s.flags.enabled = true → s.cfg.valid = true → s.tx.dirty.toNat < s.cfg.nTx →
    s.tx.mbuf.length = s.cfg.nTx → consumerInside s = true → n = Machine.dist s.tx.dirty (hwConsumer s) s.cfg.nTx →
    ∃ t, exec .txReclaim s = .next t ∧ t.result = .returned ∧
      t.tx.dirty = hwConsumer s ∧ t.tx.numFree = s.tx.numFree + BitVec.ofNat 32 n ∧
      t.tx.doneCount = s.tx.doneCount + BitVec.ofNat 32 n ∧ t.tx.next = s.tx.next ∧ t.tx.ringPhys = s.tx.ringPhys ∧
      (∀ j < n, t.tx.mbuf[(inc s.tx.dirty j s.cfg.nTx).toNat]? = some none) ∧
      (∀ i, (∀ j < n, i ≠ (inc s.tx.dirty j s.cfg.nTx).toNat) → t.tx.mbuf[i]? = s.tx.mbuf[i]?) ∧
      (newActs t s).filter isRelease =
        ((List.range n).filterMap fun j => s.tx.mbuf.getD (inc s.tx.dirty j s.cfg.nTx).toNat none).map (.release · true) ∧
      (s.tx.stalled = true ∧ (s.cfg.nTx / 4 : Nat) < t.tx.numFree.toInt →
        t.tx.stalled = false ∧ t.env = { s.env with resumable := true } ∧ .signalResumable ∈ newActs t s) ∧
      (¬(s.tx.stalled = true ∧ (s.cfg.nTx / 4 : Nat) < t.tx.numFree.toInt) →
        t.tx.stalled = s.tx.stalled ∧ t.env = s.env ∧ .signalResumable ∉ newActs t s) ∧
      t.mem = s.mem ∧ t.late = s.late ∧ t.posted = s.posted ∧ t.mac = s.mac ∧ t.stats = s.stats ∧
      t.foreign = s.foreign ∧ SameButTx t s

/-! ### The MAC agent (10_state.md) -/

/-- R57: a started MAC takes transmit steps up to the doorbell that has reached it (20_memory.md R91) and never past it, writing
no memory; each reads the bytes of the descriptor at its slot and, for a data descriptor, `len` bytes of host memory at its
address field. The slots up to the doorbell are in flight; from one that is not, which only a reset that timed out can have left
there, it takes none (R60). That a context descriptor, which no bit tells from a data descriptor (30_encoding.md R103), is known
by its length 0 is DEDUCED, log entry 20; when a doorbell reaches the MAC is log entry 11. R57 gives the transmit bit to a MAC that
has fetched; that it may be set too with a step that fetched nothing (`k` is 0, nothing published that the MAC has not fetched, or
the slot not in flight), as the clause on `ISR` lets it, is the model's choice, log entry 22. -/
def Obligations.MacTransmitStaysBehindTheDoorbell : Prop :=
  ∀ (s : State) (e k : Nat) (irq : Bool), e ≤ 16 → s.mac.conf.nTx = 2 ^ e → s.mac.started = true →
    s.mac.regs.txCons.toNat < 2 ^ e → (bellSeen .tx s).toNat < 2 ^ e →
    let t := macStep (.txDone k irq) s
    let d := Machine.dist s.mac.regs.txCons (bellSeen .tx s) (2 ^ e)
    let slot := fun j => inc s.mac.regs.txCons j (2 ^ e)
    let tpd := fun j => tpdSlotAddr s.cfg s.mac.conf.txPhys (slot j)
    t.mac.regs.tpdPidx = s.mac.regs.tpdPidx ∧ t.mem = s.mem ∧ t.late = s.late ∧ t.posted = s.posted ∧
    t.mac.regs.isr = (if irq then s.mac.regs.isr ||| (s.cfg.isr.tx &&& ~~~s.cfg.isr.dis) else s.mac.regs.isr) ∧
    (slotInFlight s.mac.regs.txCons s = false → t.mac.regs.txCons = s.mac.regs.txCons ∧ newActs t s = []) ∧
    ((∀ j < d, slotInFlight (slot j) s = true) →
      t.mac.regs.txCons = slot (min k d) ∧
      newActs t s = (List.range (min k d)).map (fun j =>
        .macFetch (slot j) (readBytes (macView s) (tpd j) s.cfg.layout.tpdSize)
          (let len := (load16 (macView s) (fieldAddr (tpd j) s.cfg.layout.tpdLen)).toNat
          if len = 0 then [] else readBytes (macView s) (load64 (macView s) (fieldAddr (tpd j) s.cfg.layout.tpdAddr)) len)))

/-- R58: a receive step that is enabled stores the frame's bytes in the posted buffers in slot order, leaves an UPDATED
completion that decodes to exactly what was received, and advances the MAC's indices, no other byte of memory changing; one
that is not enabled loses the frame and writes nothing. With no store of the core late, R58's conditions enable it. Where the
zeroing of the completion descriptor is late (20_memory.md R88), the completion stands where the MAC sees it and the core's
memory keeps the zeros. The bytes stand there when the parts share no byte with each other. What the tag field of an untagged
frame holds is the model's choice, log entry 20; which stores can be late is log entry 11. -/
def Obligations.MacReceiveCompletesOrLosesTheFrame : Prop :=
  ∀ (s : State) (bytes : List Byte) (info : RxMeta) (irq : Bool), s.cfg.valid = true → RxSound s → TrackingSound s →
    let t := macStep (.rx bytes info irq) s
    let k := s.mac.conf
    let n := buffersFor bytes.length k.bufSize
    let parts := (List.range n).map (rxPart s bytes.length)
    let completed := fun m : Memory =>
      isUpdated s.cfg (load32 m (fieldAddr (macRrdAddr s) s.cfg.layout.rrdW3)) = true ∧
      readCompletion s.cfg m (macRrdAddr s) =
        { len := bytes.length, count := n, start := s.mac.regs.rfdCons, pid := info.pid,
          err := info.err &&& errAll s.cfg, tagged := info.vlan.isSome,
          vtag := info.vlan.getD (info.ignored2.extractLsb' 0 16) }
    (macRxReady bytes.length s = false → t = s) ∧
    (s.late = [] → ReceiveEnabled bytes.length s → macRxReady bytes.length s = true) ∧
    (macRxReady bytes.length s = true → s.cfg.layout = Layout.default → Memory.wf s.mem = true →
      completed (macView t) ∧
      (isLate (macRrdAddr s) s = false → completed t.mem ∧ t.late = s.late) ∧
      (isLate (macRrdAddr s) s = true → SameBytesOutside t s parts) ∧
      (parts.Pairwise (fun p q => apart p q = true) →
        ∀ i b, bytes[i]? = some b → readByte t.mem (rxTarget s (i / k.bufSize) + BitVec.ofNat 64 (i % k.bufSize)) = b) ∧
      SameBytesOutside t s (macRrd s :: parts) ∧
      t = { s with
        mem := t.mem, late := t.late,
        mac := { s.mac with regs := { s.mac.regs with
          rfdCons := inc s.mac.regs.rfdCons n k.nRfd, rrdProd := inc s.mac.regs.rrdProd 1 k.nRrd,
          isr := if irq then s.mac.regs.isr ||| (s.cfg.isr.rx &&& ~~~s.cfg.isr.dis) else s.mac.regs.isr } } }) ∧
    (∀ r, macStep (.arrive r) s = { s with late := dropOldest r s.late } ∧
      ((s.late.map LateStore.base).Nodup → dropOldest r s.late = s.late.filter fun e => !inRange r.base r.size e.base)) ∧
    ∀ j, macStep (.reach j) s = { s with late := lateAfter j s.late, posted := s.posted.drop j }

/-! ### Receive (42_receive.md, 43_buffer_pool.md) -/

/-- R191, R200, R201: a drain that meets a descriptor that is not ready, or has no budget, reads nothing else, delivers nothing
and only runs the refill check. -/
def Obligations.DrainStopsAtNotReady : Prop :=
  ∀ (s : State) (b : BitVec 24), DrainReady s → (b = 0#24 ∨ isUpdated s.cfg (rrdFlagWord s) = false) →
    exec (.rxDrain b) s = .next { s with
      result := .count 0, pool := { s.pool with refillPending := refillFlag s.cfg s.pool },
      trace := if decide (s.pool.spare.length < s.cfg.spareLowWater) && !s.pool.refillPending
        then .refillScheduled :: s.trace else s.trace }

/-- R193, R194, R199: a fragmented frame where reassembly is not supported counts as a length error, otherwise a frame with an
error of the drop mask as a receive error; no buffer is touched, nothing is delivered, and the completion is recycled past
every slot it names. When the doorbell and the stores ahead of its fence reach the MAC (20_memory.md R89, R91) is log entry 11. -/
def Obligations.DrainDropsBadCompletions : Prop :=
  ∀ s : State, DrainReady s → CompletionReady s → Memory.wf s.mem = true →
    (1 < (rrdCompletion s).count ∧ s.cfg.jumboSupport = false ∨ (rrdCompletion s).err &&& s.cfg.rxDropMask ≠ 0#32) →
    ∃ t, exec (.rxDrain 1#24) s = .next t ∧ t.result = .count 0 ∧
      t.stats = (if 1 < (rrdCompletion s).count ∧ s.cfg.jumboSupport = false
        then { s.stats with rxLenErr := s.stats.rxLenErr + 1 } else { s.stats with rxErr := s.stats.rxErr + 1 }) ∧
      Recycled t s ∧ t.rx.mbuf = s.rx.mbuf ∧ t.rx.rrdPhys = s.rx.rrdPhys ∧ t.rx.rfdPhys = s.rx.rfdPhys ∧
      t.pool.spare = s.pool.spare ∧ t.pool.refillPending = refillFlag s.cfg s.pool ∧
      t.late = lateAfterBell s (fenced s.posted.length s.late) ∧ t.posted = postedAfter .rx s ∧
      SameBytesOutside t s [{ base := rrdFlagAddr s, size := 4 }] ∧ t.env = s.env ∧ SameButRx t s ∧
      t.mac = { s.mac with regs := { s.mac.regs with rfdPidx := t.mac.regs.rfdPidx } }

/-- R190, R195 to R199: a good frame goes through assembly; the chain it gives is delivered with its length without CRC, its
checksum validity and its VLAN tag; a frame for which assembly finds no buffer counts as a resource error; either way the
completion is recycled, and memory is otherwise as assembly left it. That the empty chain, which assembly gives where no slot
holds data after the CRC trailer, is delivered and counted too is the model's choice, log entry 15; when the doorbell and the
stores ahead of its fence reach the MAC (20_memory.md R89, R91) is log entry 11. -/
def Obligations.DrainDeliversGoodFrames : Prop :=
  ∀ (s : State) (l : List Buf) (s1 : State), DrainReady s → CompletionReady s → Memory.wf s.mem = true →
    ¬(1 < (rrdCompletion s).count ∧ s.cfg.jumboSupport = false) →
    (rrdCompletion s).err &&& s.cfg.rxDropMask = 0#32 → fits (rrdCompletion s) s.cfg = true →
    let k := rrdCompletion s
    (assemble k.start k.count (k.len - s.cfg.crcLen) (s.setResult (.count 0)) = .chain l s1 ∨
      l = [] ∧ assemble k.start k.count (k.len - s.cfg.crcLen) (s.setResult (.count 0)) = .lost s1) →
    ∃ t, exec (.rxDrain 1#24) s = .next t ∧ Recycled t s ∧ t.rx.mbuf = s1.rx.mbuf ∧ t.pool.spare = s1.pool.spare ∧
      t.pool.refillPending = refillFlag s.cfg s1.pool ∧ SameBytesOutside t s1 [{ base := rrdFlagAddr s, size := 4 }] ∧
      t.env = s1.env ∧ t.late = lateAfterBell s (fenced s.posted.length s.late) ∧ t.posted = postedAfter .rx s ∧
      SameButRx t s ∧
      t.mac = { s.mac with regs := { s.mac.regs with rfdPidx := t.mac.regs.rfdPidx } } ∧
      (assemble k.start k.count (k.len - s.cfg.crcLen) (s.setResult (.count 0)) = .chain l s1 →
        t.result = .count 1 ∧ t.stats = { s.stats with rxDelivered := s.stats.rxDelivered + 1 } ∧
        .inbound (linkChain l) (k.len - s.cfg.crcLen) (csumValid s.cfg k.pid k.err) (vlanMeta s.cfg k.tagged k.vtag) ∈
          newActs t s) ∧
      (assemble k.start k.count (k.len - s.cfg.crcLen) (s.setResult (.count 0)) = .lost s1 →
        t.result = .count 0 ∧ t.stats = { s.stats with rxResErr := s.stats.rxResErr + 1 })

/-- R220 to R224: the four tiers of `acquire` on a slot that has its buffer `b`: swap in a new buffer, else copy into a
small one, else a spare (copied into, or swapped in), else the frame is lost with the slot as it was. The answers are ones
the allocator can give; what those are, and that a new buffer's length is 0 until it is set, is log entry 8. -/
def Obligations.AcquireTriesFourTiers : Prop :=
  ∀ (s : State) (i : Half) (d : Nat) (b : Buf) (a : BufAnswer) (rest : List (Option BufAnswer)),
    Memory.wf s.mem = true → i.toNat < s.rx.mbuf.length → d ≤ b.cap → d < 2 ^ 64 → bufRegion b ∈ s.env.live →
    (s.env.alloc = some a :: rest → bufAnswerFits true s.cfg.rxBufSize a s = true →
      ∃ r t, acquire i d b s = (some { b with len := d }, t) ∧ FitBuf s.cfg r ∧ r.id = s.env.nextBuf ∧ r.phys = a.phys ∧
        t.rx = { s.rx with mbuf := s.rx.mbuf.set i.toNat (some r) } ∧ load64 t.mem (rfdSlot s i) = r.phys ∧
        SameBytesOutside t s [rfdRegion s i, bufRegion r] ∧ t.pool = s.pool ∧ t.late = s.late ∧ t.posted = s.posted ∧
        t.env.alloc = rest ∧
        t.env.live = bufRegion r :: s.env.live) ∧
    (s.env.alloc = none :: some a :: rest → bufAnswerFits false d a s = true →
      ∃ c t, acquire i d b s = (some c, t) ∧ c.id = s.env.nextBuf ∧ c.cap = d + a.extra ∧ c.len = d ∧
        c.phys = a.phys ∧ t.rx = s.rx ∧ t.pool = s.pool ∧ t.late = s.late ∧ t.posted = s.posted ∧ t.env.alloc = rest ∧
        t.env.live = bufRegion c :: s.env.live ∧
        (∀ k < d, readByte t.mem (c.phys + BitVec.ofNat 64 k) = readByte s.mem (b.phys + BitVec.ofNat 64 k)) ∧
        SameBytesOutside t s [bufRegion c]) ∧
    (s.env.alloc = none :: none :: rest → ∀ q ps, s.pool.spare = q :: ps →
      ∃ r t, acquire i d b s = (some r, t) ∧ t.pool = { s.pool with spare := ps } ∧
        t.env = { s.env with alloc := rest } ∧ t.late = s.late ∧ t.posted = s.posted ∧
        (s.cfg.spareMode = .copyIntoSpare → r = { q with len := d } ∧ t.rx = s.rx ∧
          (∀ k < d, readByte t.mem (q.phys + BitVec.ofNat 64 k) = readByte s.mem (b.phys + BitVec.ofNat 64 k)) ∧
          SameBytesOutside t s [{ base := q.phys, size := d }]) ∧
        (s.cfg.spareMode = .swapInSpare → r = { b with len := d } ∧
          t.rx = { s.rx with mbuf := s.rx.mbuf.set i.toNat (some q) } ∧ load64 t.mem (rfdSlot s i) = q.phys ∧
          SameBytesOutside t s [rfdRegion s i])) ∧
    (s.env.alloc = none :: none :: rest → s.pool.spare = [] →
      acquire i d b s = (none, { s with env := { s.env with alloc := rest } }))

/-- R225, R226: with replacements for every slot that holds data, a multi-buffer frame becomes the chain of the buffers posted
at its slots, full but the last, in slot order and of the packet's total length; each of those slots has its replacement posted,
every other slot keeps its buffer, and no byte of memory changes but in the replacements and their free descriptors. That a
frame with no data (`pktLen = 0`), for which R225 names no head, gives the empty chain is the model's choice, log entry 15. -/
def Obligations.JumboFrameBecomesAChain : Prop :=
  ∀ (s : State) (start : Half) (n pktLen k : Nat) (ps : List BufAnswer) (rest : List (Option BufAnswer)),
    s.cfg.valid = true → Memory.wf s.mem = true → 1 < n → n ≤ s.cfg.nRfd → start.toNat < s.cfg.nRfd →
    s.rx.mbuf.length = s.cfg.nRfd → (∀ e ∈ s.rx.mbuf, e ≠ none) → pktLen ≤ n * s.cfg.rxBufSize →
    k = (pktLen + s.cfg.rxBufSize - 1) / s.cfg.rxBufSize → s.env.alloc = ps.map some ++ rest → ps.length = k →
    RxAnswers s (takenRegions s) ps → { base := s.rx.rfdPhys, size := rfdBytes s.cfg } ∈ s.env.live →
    ∃ l t, assemble start n pktLen s = .chain l t ∧ l.length = k ∧ (l.map Buf.len).sum = pktLen ∧
      (∀ j b, l[j]? = some b → ∃ b0, s.rx.mbuf[(inc start j s.cfg.nRfd).toNat]? = some (some b0) ∧
        b = { b0 with len := min (pktLen - j * s.cfg.rxBufSize) s.cfg.rxBufSize }) ∧
      (∀ j < k, ∃ r, t.rx.mbuf[(inc start j s.cfg.nRfd).toNat]? = some (some r) ∧ FitBuf s.cfg r ∧
        (ps.map BufAnswer.phys)[j]? = some r.phys ∧ load64 t.mem (rfdSlot s (inc start j s.cfg.nRfd)) = r.phys) ∧
      (∀ i, (∀ j < k, i ≠ (inc start j s.cfg.nRfd).toNat) → t.rx.mbuf[i]? = s.rx.mbuf[i]?) ∧
      SameBytesOutside t s ((List.range k).map (fun j => rfdRegion s (inc start j s.cfg.nRfd)) ++ bufRegions s ps) ∧
      t.env.alloc = rest ∧ t.env.live = (bufRegions s ps).reverse ++ s.env.live ∧ t.pool = s.pool ∧ t.tx = s.tx ∧
      t.late = s.late ∧ t.posted = s.posted ∧ t.stats = s.stats ∧ t.trace = s.trace

/-- R227: when no tier serves a slot of a chain, be the slots before it served by swapped-in buffers, copies or spares in any
mixture, every buffer already chained is freed, the originals, the copies and the spares alike, once each and in slot order; a
spare drawn is not returned to the pool; the earlier slots keep what they hold then, the others their buffers, so that every slot
is still posted, its free descriptor with the address of its buffer; nothing else changes, and no byte of memory but in the
buffers the allocator gave, the free descriptors of the slots whose buffers were swapped and the spares copied into. The answers
are ones the allocator can give, log entry 8. What the drain then counts and recycles is `DrainDeliversGoodFrames`. -/
def Obligations.ChainFailureFreesTheChain : Prop :=
  ∀ (s : State) (start : Half) (n pktLen : Nat) (ts : List Tier) (rest : List (Option BufAnswer)),
    s.cfg.valid = true → 1 < n → n ≤ s.cfg.nRfd → start.toNat < s.cfg.nRfd → s.rx.mbuf.length = s.cfg.nRfd →
    (∀ e ∈ s.rx.mbuf, e ≠ none) → ts.length < n → ts.length * s.cfg.rxBufSize < pktLen →
    s.env.alloc = ts.flatMap tierAnswers ++ none :: none :: rest → s.pool.spare.length = ts.count .spare →
    ChainAnswers s ts →
    let slot := fun i => inc start i s.cfg.nRfd
    ∃ (t : State) (chain : List Buf), assemble start n pktLen s = .lost t ∧
      chain.length = ts.length ∧ newActs t s = chain.map .bufFree ∧
      (∀ i tier, ts[i]? = some tier → ∃ b got now, s.rx.mbuf[(slot i).toNat]? = some (some b) ∧ chain[i]? = some got ∧
        t.rx.mbuf[(slot i).toNat]? = some (some now) ∧ SlotServed s ts i b got now tier) ∧
      (∀ i, (∀ j < ts.length, i ≠ (slot j).toNat) → t.rx.mbuf[i]? = s.rx.mbuf[i]?) ∧ (∀ e ∈ t.rx.mbuf, e ≠ none) ∧
      t = { s with
        rx := { s.rx with mbuf := t.rx.mbuf }, pool := { s.pool with spare := [] }, mem := t.mem,
        env := { s.env with
          alloc := rest, nextBuf := s.env.nextBuf + (chainGiven ts).length,
          live := ((bufRegions s (chainGiven ts)).reverse ++ s.env.live).diff (chain.map bufRegion) },
        trace := t.trace } ∧
      (Memory.wf s.mem = true →
        SameBytesOutside t s (bufRegions s (chainGiven ts) ++
          ((List.range ts.length).filter fun i => ts[i]?.any (swapsIn s.cfg)).map (fun i => rfdRegion s (slot i)) ++
          (if s.cfg.spareMode = .copyIntoSpare then s.pool.spare.map fun p => { base := p.phys, size := s.cfg.rxBufSize }
            else [])) ∧
        (s.flags.ringsUp = true → RxSound s → RegionsSound s → DescriptorsPosted s → DescriptorsPosted t))

/-- R199, R200: a budget counts completions consumed, whatever their outcome: of a run of ready single-buffer completions, some
with an error of the drop mask and the others with a replacement for their buffer, at least as long as the budget, exactly the
budget is consumed, with one doorbell each, and the result is the number delivered among them. When the doorbells and the stores
ahead of their fences reach the MAC (20_memory.md R89, R91) is log entry 11. -/
def Obligations.BudgetCountsCompletionsConsumed : Prop :=
  ∀ (s : State) (b : BitVec 24) (ps : List BufAnswer) (rest : List (Option BufAnswer)),
    let bad := fun j => (completionAt s j).err &&& s.cfg.rxDropMask != 0#32
    let good := (List.range b.toNat).countP (fun j => !bad j)
    DrainReady s → s.cfg.valid = true → Memory.wf s.mem = true →
    s.rx.next.toNat < s.cfg.nRrd → s.rx.free.toNat < s.cfg.nRfd → b.toNat ≤ s.cfg.nRrd →
    s.rx.mbuf.length = s.cfg.nRfd → (∀ e ∈ s.rx.mbuf, e ≠ none) →
    (∀ j < b.toNat, isUpdated s.cfg (load32 s.mem (rrdFlag s j)) = true ∧
      (completionAt s j).count = 1 ∧ (completionAt s j).start = inc s.rx.free j s.cfg.nRfd ∧
      s.cfg.crcLen ≤ (completionAt s j).len ∧
      (bad j = false → 0 < (completionAt s j).len ∧ (completionAt s j).len ≤ s.cfg.rxBufSize)) →
    s.env.alloc = ps.map some ++ rest → ps.length = good → RxAnswers s (takenRegions s) ps →
    (∀ r ∈ ringRegions s, r ∈ s.env.live) → (ringRegions s).Pairwise (fun p q => apart p q = true) →
    ∃ t, exec (.rxDrain b) s = .next t ∧ t.result = .count good ∧
      t.stats = { s.stats with
        rxErr := s.stats.rxErr + (b.toNat - good), rxDelivered := s.stats.rxDelivered + good } ∧
      t.rx.next = inc s.rx.next b.toNat s.cfg.nRrd ∧ t.rx.free = inc s.rx.free b.toNat s.cfg.nRfd ∧
      (∀ i, (∀ j < b.toNat, bad j = false → i ≠ (inc s.rx.free j s.cfg.nRfd).toNat) → t.rx.mbuf[i]? = s.rx.mbuf[i]?) ∧
      t.pool.spare = s.pool.spare ∧ t.env.alloc = rest ∧
      t.late = (if b = 0#24 then s.late
        else if s.env.slowBus then fenced s.posted.length s.late
        else lateAfter (s.posted.length + b.toNat) (fenced s.posted.length s.late)) ∧
      t.posted = (if s.env.slowBus then s.posted ++ (List.range b.toNat).map (fun j =>
          { bell := .rx, before := if j = 0 then s.mac.regs.rfdPidx else inc s.rx.free (j - 1) s.cfg.nRfd })
        else if b = 0#24 then s.posted else []) ∧
      countActs (isWriteTo s.cfg.regmap.rfdPidx.offset) t =
        countActs (isWriteTo s.cfg.regmap.rfdPidx.offset) s + b.toNat ∧
      (b ≠ 0#24 → t.mac.regs.rfdPidx = inc s.rx.free (b.toNat - 1) s.cfg.nRfd) ∧
      (∀ j < b.toNat, load32 t.mem (rrdFlag s j) =
        load32 s.mem (rrdFlag s j) &&& ~~~bitWord s.cfg.layout.updated) ∧
      SameBytesOutside t s ((List.range b.toNat).map (flagRegion s) ++ bufRegions s ps ++
        ((List.range b.toNat).filter (fun j => !bad j)).map (fun j => rfdRegion s (inc s.rx.free j s.cfg.nRfd))) ∧
      SameButRx t s

/-- R196, R197 (with R165 for the way out): each bit of the checksum-validity set, and the VLAN tag that comes back from the
field a tag was put in. -/
def Obligations.ChecksumValidityAndVlanTag : Prop :=
  ∀ (c : Cfg) (pid : BitVec 8) (err : Word) (tag : Half),
    let ipok := !wordBit err c.layout.errIpv4
    let l4ok := !wordBit err c.layout.errL4
    (csumValid c pid err).getLsbD 0 = ((pid == 1#8 || pid == 3#8 || pid == 5#8) && ipok) ∧
    (csumValid c pid err).getLsbD 1 = (pid == 3#8 && l4ok) ∧ (csumValid c pid err).getLsbD 2 = (pid == 5#8 && l4ok) ∧
    (csumValid c pid err).getLsbD 3 = (pid == 2#8 && l4ok) ∧ (csumValid c pid err).getLsbD 4 = (pid == 4#8 && l4ok) ∧
    vlanMeta c false tag = none ∧ vlanMeta c true (vlanField c (some tag)) = some tag ∧
    vlanMeta c true tag = some (if c.vlanSwap then tag.extractLsb' 0 8 ++ tag.extractLsb' 8 8 else tag)

/-- R232: `POOL.REFILL` tops the pool up until it is full or an allocation fails, keeping the spares it has in front, and clears
the refill flag; disabled, it only clears the flag. The answers are ones the allocator can give, log entry 8. -/
def Obligations.RefillTopsUpThePool : Prop :=
  ∀ (s : State) (ps : List BufAnswer) (rest : List (Option BufAnswer)),
    (s.flags.enabled = false →
      exec .poolRefill s = .next { s with pool := { s.pool with refillPending := false }, result := .returned }) ∧
    (s.flags.enabled = true →
      s.env.alloc = ps.map some ++ none :: rest ∧ ps.length < s.cfg.spareCap - s.pool.spare.length ∨
      s.env.alloc = ps.map some ++ rest ∧ ps.length = s.cfg.spareCap - s.pool.spare.length →
      RxAnswers s (takenRegions s) ps → Memory.wf s.mem = true →
      ∃ t new, exec .poolRefill s = .next t ∧ t.result = .returned ∧
        t.pool = { spare := s.pool.spare ++ new, refillPending := false } ∧
        new.map Buf.phys = ps.map BufAnswer.phys ∧ (∀ b ∈ new, FitBuf s.cfg b) ∧ t.env.alloc = rest ∧
        t.env.live = (bufRegions s ps).reverse ++ s.env.live ∧ t.rx = s.rx ∧
        t.late = s.late ∧ t.posted = s.posted ∧ SameBytesOutside t s (bufRegions s ps) ∧ t.mac = s.mac ∧ t.stats = s.stats ∧
        t.trace = s.trace ∧
        SameButRx t s)

/-! ### Ring operations (40_rings.md) -/

/-- R145 with 10_state.md R54 column (b): `RING.SETUP` whose ring and posted-buffer allocations succeed; a spare buffer that
cannot be allocated ends the populating of the pool and is no failure (step 5, 43_buffer_pool.md R228). The MAC may see the
rings as they were (20_memory.md R88; which stores can be late is log entry 11). The answers are ones the allocators can
give, log entry 8. The device registers are as column (b), R40 and R43 have them, with no register write among the acts: that
the column's values stand without the doorbell write, which is `DEV.ENABLE`'s, is log entry 13. -/
def Obligations.RingSetupBuildsTheRings : Prop :=
  ∀ (s : State) (t r q : Addr) (dr : List (Option Addr)) (bufs : List BufAnswer) (ar : List (Option BufAnswer)),
    s.flags.enabled = false → s.flags.ringsUp = false → s.cfg.valid = true → Memory.wf s.mem = true →
    SetupAnswers s s.env.live t r q dr bufs ar →
    ∃ u, exec .ringSetup s = .next u ∧ u.result = .ok ∧ u.flags = { s.flags with ringsUp := true } ∧
      FreshRings u s s.env.live t r q bufs ∧ SameBytesOutside u s (setupRegions s t r q bufs) ∧
      u.late = held (allSlots u) s ∧ u.posted = s.posted ∧
      u.env.dma = dr ∧ u.env.alloc = ar ∧ u.env.outbound = s.env.outbound ∧ u.link = s.link ∧
      u.intrMask = s.intrMask ∧
      u.mac = { s.mac with regs :=
        { txCons := 0#16, rfdCons := 0#16, rrdProd := 0#16, tpdPidx := 0#16, rfdPidx := BitVec.ofNat 16 (s.cfg.nRfd - 1),
          isr := s.mac.regs.isr, imr := s.mac.regs.imr } } ∧
      u.trace = s.trace ∧ SameLongLived u s

/-- R145, failure: a ring allocation that fails releases the regions got before it; a posted buffer that cannot be
allocated frees the buffers posted before it and releases the three regions; `CfgSetupFail` is raised, `FAIL` returned,
nothing is held. The answers are ones the allocators can give, log entry 8. The MAC may see the stores to the rings late
(20_memory.md R88; which stores can be late is the model's choice, log entry 11). -/
def Obligations.RingSetupFailureUnwinds : Prop :=
  ∀ (s : State) (t r q : Addr) (dr : List (Option Addr)) (bufs : List BufAnswer) (ar : List (Option BufAnswer)),
    s.flags.enabled = false → s.flags.ringsUp = false →
    freshRegions s.cfg.ringAlign (ringsAt s.cfg t r q) s.env.live = true →
    (s.env.dma = none :: dr →
      exec .ringSetup s = .next { s with
        env := { s.env with dma := dr }, result := .fail, trace := .raised .cfgSetupFail :: s.trace }) ∧
    (s.env.dma = some t :: none :: dr →
      exec .ringSetup s = .next { s with
        env := { s.env with dma := dr }, result := .fail,
        trace := .raised .cfgSetupFail :: .dmaFree t (txBytes s.cfg) :: s.trace }) ∧
    (s.env.dma = some t :: some r :: none :: dr →
      exec .ringSetup s = .next { s with
        env := { s.env with dma := dr }, result := .fail,
        trace := .raised .cfgSetupFail :: .dmaFree r (rrdBytes s.cfg) :: .dmaFree t (txBytes s.cfg) :: s.trace }) ∧
    (s.env.dma = some t :: some r :: some q :: dr → s.env.alloc = bufs.map some ++ none :: ar →
      bufs.length < s.cfg.nRfd → RxAnswers s ((ringsAt s.cfg t r q).reverse ++ s.env.live) bufs →
      ∃ u, exec .ringSetup s = .next u ∧ u.result = .fail ∧ u.flags = s.flags ∧ u.tx.mbuf = [] ∧ u.rx.mbuf = [] ∧
        u.pool = s.pool ∧ countActs isBufFree u = countActs isBufFree s + bufs.length ∧
        .dmaFree t (txBytes s.cfg) ∈ newActs u s ∧ .dmaFree r (rrdBytes s.cfg) ∈ newActs u s ∧
        .dmaFree q (rfdBytes s.cfg) ∈ newActs u s ∧
        .raised .cfgSetupFail ∈ newActs u s ∧ (newActs u s).length = bufs.length + 4 ∧
        u.late = held (ringSlots s.cfg t r q) s ∧ u.posted = s.posted ∧ u.env.live = s.env.live ∧ u.env.alloc = ar ∧
        u.env.dma = dr ∧
        u.env.outbound = s.env.outbound ∧
        (s.cfg.valid = true → Memory.wf s.mem = true → SameBytesOutside u s (setupRegions s t r q bufs)) ∧
        u.link = s.link ∧ u.intrMask = s.intrMask ∧ u.mac = s.mac ∧ SameLongLived u s)

/-- R147, R149: `TX.CLEAR` releases every frame the tracking array holds, in slot order and unsent, zeroes the transmit ring and
empties the transmit side, keeping the completion counter; run twice it is the same as run once, on a ring that does not wrap
round the address space, but for the stores that are late, of which the MAC sees the same. The MAC may see the zeroed ring late
(20_memory.md R88; log entry 11). -/
def Obligations.TxClearEmptiesTheTransmitSide : Prop :=
  ∀ s : State, s.flags.ringsUp = true → s.mac.started = false → Memory.wf s.mem = true →
    ∃ t, exec .txClear s = .next t ∧
      t = { s with
        tx := { s.tx with
          next := 0#16, dirty := 0#16, numFree := BitVec.ofNat 32 s.cfg.nTx, stalled := false,
          mbuf := List.replicate s.cfg.nTx none },
        mem := t.mem, late := held (txSlots s) s, result := .returned, trace := t.trace } ∧
      newActs t s = (inFlight s.tx.mbuf).map (.release · false) ∧
      ZeroBytes t.mem s.tx.ringPhys (txBytes s.cfg) ∧
      SameBytesOutside t s [{ base := s.tx.ringPhys, size := txBytes s.cfg }] ∧
      (s.cfg.valid = true → s.tx.ringPhys.toNat + txBytes s.cfg ≤ 2 ^ 64 →
        ∃ u, exec .txClear t = .next u ∧ u = { t with late := u.late } ∧ (s.env.slowBus = false → u = t) ∧
          ∀ a, readByte (macView u) a = readByte (macView t) a)

/-- R148, R149: `RX.RESET` zeroes the completion ring and both cursors, offers every slot but the last, and leaves the posted
buffers and the free ring alone; run twice, on a ring that does not wrap round the address space, it leaves the same machine as
run once, but for the stores that are late, of which the MAC sees the same, and the doorbell writes that are posted. The MAC may
see the zeroed ring late (20_memory.md R88; log entry 11). That it runs on a MAC that is stopped but has not been reset is the
model's choice, log entry 13. -/
def Obligations.RxResetClearsTheCompletionRing : Prop :=
  ∀ s : State, s.flags.ringsUp = true → s.mac.started = false → Memory.wf s.mem = true →
    ∃ t, exec .rxReset s = .next t ∧
      t = { s with
        rx := { s.rx with next := 0#16, free := 0#16 },
        mac := { s.mac with regs := { s.mac.regs with rfdPidx := BitVec.ofNat 16 (s.cfg.nRfd - 1) } },
        mem := t.mem, late := lateAfterBell s (held (rrdSlots s) s), posted := postedAfter .rx s, result := .returned,
        trace := .regWrite s.cfg.regmap.rfdPidx.offset s.cfg.regmap.rfdPidx.width
          (BitVec.ofNat 32 (s.cfg.nRfd - 1)) :: s.trace } ∧
      ZeroBytes t.mem s.rx.rrdPhys (rrdBytes s.cfg) ∧
      SameBytesOutside t s [{ base := s.rx.rrdPhys, size := rrdBytes s.cfg }] ∧
      (s.cfg.valid = true → s.rx.rrdPhys.toNat + rrdBytes s.cfg ≤ 2 ^ 64 →
        FencesPosted s →
        ∃ u, exec .rxReset t = .next u ∧ u = { t with late := u.late, posted := u.posted, trace := u.trace } ∧
          (s.env.slowBus = false → u = { t with trace := u.trace }) ∧
          ∀ a, readByte (macView u) a = readByte (macView t) a)

/-- R146: `RING.TEARDOWN` frees every posted and every spare buffer, releases every frame, zeroes and releases the three
regions, and leaves nothing of the rings. The MAC may see the zeroed rings late (20_memory.md R88; log entry 11). -/
def Obligations.RingTeardownReleasesEverything : Prop :=
  ∀ s : State, s.flags.enabled = false → s.flags.ringsUp = true → s.mac.started = false → Memory.wf s.mem = true →
    ∃ t, exec .ringTeardown s = .next t ∧ t.result = .returned ∧ NoRings t ∧
      newActs t s = (inFlight s.tx.mbuf).map (.release · false) ++ (tracked s.rx.mbuf).map .bufFree ++
        s.pool.spare.map .bufFree ++
        [.dmaFree s.tx.ringPhys (txBytes s.cfg), .dmaFree s.rx.rrdPhys (rrdBytes s.cfg),
          .dmaFree s.rx.rfdPhys (rfdBytes s.cfg)] ∧
      ZeroBytes t.mem s.tx.ringPhys (txBytes s.cfg) ∧ ZeroBytes t.mem s.rx.rrdPhys (rrdBytes s.cfg) ∧
      ZeroBytes t.mem s.rx.rfdPhys (rfdBytes s.cfg) ∧
      SameBytesOutside t s (ringRegions s) ∧
      t.flags = { s.flags with ringsUp := false } ∧ t.late = heldAfterClear (rrdSlots s ++ rfdSlots s) s ∧
      t.posted = s.posted ∧ t.link = s.link ∧
      t.intrMask = s.intrMask ∧
      t.mac = s.mac ∧
      t.env = { s.env with live := s.env.live.diff (freedRegions s) } ∧ SameLongLived t s

/-! ### Administrative operations and the link machine (60_exceptions.md) -/

/-- R260: `DEV.ENABLE` with every answer good ends enabled with the link down. The answers are ones the allocators can give, log
entry 8; which stores and doorbells can be late (20_memory.md R88, R91) is log entry 11. -/
def Obligations.EnableEndsWithTheLinkDown : Prop :=
  ∀ (s : State) (t r q : Addr) (dr : List (Option Addr)) (bufs : List BufAnswer) (ar : List (Option BufAnswer))
    (hr : List HwAnswer),
    s.flags.enabled = false → s.flags.ringsUp = false → s.cfg.valid = true → Memory.wf s.mem = true →
    SetupAnswers s s.env.live t r q dr bufs ar → s.env.hw = .ok :: .ok :: .ok :: .ok :: hr →
    ∃ u, exec .devEnable s = .next u ∧ u.result = .ok ∧
      u.flags = { enabled := true, linkUp := false, pollMode := s.flags.pollMode, wdtArmed := false, ringsUp := true } ∧
      FreshRings u s s.env.live t r q bufs ∧ SameBytesOutside u s (setupRegions s t r q bufs) ∧
      u.link = Link.down ∧ u.intrMask = imrDown s.cfg ∧
      u.mac = { started := true, startedWith := none, conf := macConf u, advertised := s.medium,
                regs := freshRegs s.cfg (imrDown s.cfg) } ∧
      u.late = lateAfterReset s (lateAfter s.posted.length (held (allSlots u) s)) ∧ u.posted = postedAfterReset s ∧
      u.env.outbound = s.env.outbound ∧ u.env.hw = hr ∧ SameLongLived u s

/-- R260 step 2, R244: a hardware call of `DEV.ENABLE` that times out leaves the interface disabled with nothing
allocated; and `DEV.ENABLE` of an enabled interface fails with no effect. That the MAC is halted then is the model's
choice, log entry 9; the answers are ones the allocators can give, log entry 8; which stores can be late (20_memory.md R88), and
that no doorbell write is posted across a MAC reset, is log entry 11. -/
def Obligations.EnableFailureHoldsNothing : Prop :=
  ∀ (s : State) (t r q : Addr) (dr : List (Option Addr)) (bufs : List BufAnswer) (ar : List (Option BufAnswer)) (k : Nat)
    (d : DeviceRegs) (hr : List HwAnswer),
    (s.flags.enabled = true → exec .devEnable s = .next { s with result := .fail }) ∧
    (s.flags.enabled = false → s.flags.ringsUp = false → SetupAnswers s s.env.live t r q dr bufs ar → k < 4 →
      s.env.hw = List.replicate k .ok ++ .timeout d :: hr →
      ∃ u, exec .devEnable s = .next u ∧ u.result = .fail ∧ u.flags = s.flags ∧ NoRings u ∧
        u.mac.started = false ∧ .raised .cfgTimeout ∈ newActs u s ∧
        countActs isBufFree u = countActs isBufFree s + bufs.length ∧
        (s.late = [] → s.env.slowBus = false → u.late = []) ∧ u.posted = [] ∧ u.env.live = s.env.live ∧
        (s.cfg.valid = true → Memory.wf s.mem = true → SameBytesOutside u s (setupRegions s t r q bufs)) ∧
        u.link = s.link ∧ u.intrMask = s.intrMask ∧ u.env.outbound = s.env.outbound ∧ u.env.hw = hr ∧
        SameLongLived u s)

/-- R264, R285: `DEV.DISABLE` writes the interrupt source off and flushes before anything is freed, then drops every queued and
in-flight frame, every buffer and the rings, whatever the MAC reset answers; disabled already, it does nothing. That the MAC is
halted whatever its reset answers, that one which times out sets no bit of `IMR`, and that the MAC's configuration and what it
advertises survive a reset, is the model's choice, log entry 9. The MAC may see the zeroed rings late (20_memory.md R88; which
stores can be late is the model's choice, log entry 11), and no doorbell write is posted behind the flush (R91). -/
def Obligations.DisableReleasesEverything : Prop :=
  ∀ (s : State) (h : HwAnswer) (hr : List HwAnswer),
    (s.flags.enabled = false → exec .devDisable s = .next { s with result := .ok }) ∧
    (s.flags.enabled = true → s.env.during = [] → s.env.hw = h :: hr → Memory.wf s.mem = true →
      ∃ u, exec .devDisable s = .next u ∧ u.result = .ok ∧
        u.flags = { enabled := false, linkUp := false, pollMode := false, wdtArmed := false, ringsUp := false } ∧
        NoRings u ∧ u.link = Link.down ∧ u.intrMask = 0#32 ∧ u.mac.started = false ∧ u.mac.startedWith = none ∧
        u.mac.regs.imr = 0#32 ∧ u.late = heldAfterClear (rrdSlots s ++ rfdSlots s) (reachAll s) ∧ u.posted = [] ∧
        u.mac.conf = s.mac.conf ∧ u.mac.advertised = s.mac.advertised ∧
        (h = .ok → u.mac.regs = DeviceRegs.zero) ∧
        u.env = { s.env with outbound := [], hw := hr, live := s.env.live.diff (freedRegions s) } ∧
        (newActs u s).take 3 =
          [.regWrite s.cfg.regmap.imr.offset s.cfg.regmap.imr.width 0#32,
            .regWrite s.cfg.regmap.isr.offset s.cfg.regmap.isr.width s.cfg.isr.dis, .regFlush] ∧
        (newActs u s).filter isRelease = (s.env.outbound ++ inFlight s.tx.mbuf).map (.release · false) ∧
        (newActs u s).filter isBufFree = (tracked s.rx.mbuf ++ s.pool.spare).map .bufFree ∧
        SameBytesOutside u s (ringRegions s) ∧ SameLongLived u s)

/-- R259: `DEV.RESET` with good answers ends enabled with the link down, fresh rings, the poll mode kept, the counters
kept and the watchdog not armed; the frames in flight are released unsent. The answers are ones the allocators can give once
the old rings and buffers are given back, log entry 8; which stores and doorbells can be late (20_memory.md R88, R91) is log
entry 11. -/
def Obligations.ResetRebuildsTheInterface : Prop :=
  ∀ (s : State) (h : HwAnswer) (t r q : Addr) (dr : List (Option Addr)) (bufs : List BufAnswer)
    (ar : List (Option BufAnswer)) (hr : List HwAnswer),
    s.flags.enabled = true → s.env.during = [] → s.cfg.valid = true → Memory.wf s.mem = true →
    SetupAnswers s (s.env.live.diff (freedRegions s)) t r q dr bufs ar →
    s.env.hw = h :: .ok :: .ok :: .ok :: .ok :: hr →
    ∃ u, exec .devReset s = .next u ∧ u.result = .ok ∧
      u.flags = { enabled := true, linkUp := false, pollMode := s.flags.pollMode, wdtArmed := false, ringsUp := true } ∧
      FreshRings u s (s.env.live.diff (freedRegions s)) t r q bufs ∧
      u.link = Link.down ∧ u.intrMask = imrDown s.cfg ∧ u.mac.started = true ∧
      u.mac.regs = freshRegs s.cfg (imrDown s.cfg) ∧ u.mac.conf = macConf u ∧ u.mac.advertised = s.medium ∧
      u.env.outbound = [] ∧
      (∃ d, exec .devDisable s = .next d ∧ u.late = lateAfterReset s (held (allSlots u) d)) ∧
      u.posted = postedAfterReset s ∧
      (newActs u s).filter isRelease = (s.env.outbound ++ inFlight s.tx.mbuf).map (.release · false) ∧
      (newActs u s).filter isBufFree = (tracked s.rx.mbuf ++ s.pool.spare).map .bufFree ∧
      SameBytesOutside u s (ringRegions s ++ setupRegions s t r q bufs) ∧ SameLongLived u s

/-- R257, R263: `LINK.UP p` starts the MAC with `p`, unmasks everything, opens the gate, signals the queue and arms the
watchdog; no ring, buffer or byte of memory is touched. -/
def Obligations.LinkUpOpensTheGate : Prop :=
  ∀ (s : State) (hr : List HwAnswer), s.env.during = [] → s.flags.enabled = true → s.flags.linkUp = false →
    s.linkArg.valid = true → s.env.hw = .ok :: hr →
    exec .linkUp s = .next { s with
      link := s.linkArg, flags := { s.flags with linkUp := true, wdtArmed := true }, intrMask := imrFull s.cfg,
      mac := { s.mac with
        started := true, startedWith := some s.linkArg, regs := { s.mac.regs with imr := imrFull s.cfg } },
      wdt := { lastDone := s.tx.doneCount, stallTicks := 0 }, env := { s.env with hw := hr, resumable := true },
      result := .ok,
      trace := .signalResumable :: .regWrite s.cfg.regmap.imr.offset s.cfg.regmap.imr.width (imrFull s.cfg) ::
        .hw (.macStart (some s.linkArg)) true :: s.trace }

/-- R258: `LINK.DOWN` flushes the queue, clears the transmit side and the completion ring, narrows the mask, restarts the MAC
idle and forgets the link; the posted buffers and the free ring stay. The MAC may see the zeroed rings and the doorbell late
(20_memory.md R88, R91; log entry 11). That what the MAC advertises survives its reset is the model's choice, log entry 9. -/
def Obligations.LinkDownClearsTheRings : Prop :=
  ∀ (s : State) (hr : List HwAnswer), s.env.during = [] → s.flags.enabled = true → s.env.hw = .ok :: .ok :: .ok :: hr →
    Memory.wf s.mem = true →
    ∃ t, exec .linkDown s = .next t ∧
      t = { s with
        tx := { s.tx with
          next := 0#16, dirty := 0#16, numFree := BitVec.ofNat 32 s.cfg.nTx, stalled := false,
          mbuf := List.replicate s.cfg.nTx none },
        rx := { s.rx with next := 0#16, free := 0#16 }, link := Link.down,
        flags := { s.flags with linkUp := false, wdtArmed := false }, intrMask := imrDown s.cfg,
        mac := { started := true, startedWith := none, conf := macConf s, advertised := s.mac.advertised,
                 regs := freshRegs s.cfg (imrDown s.cfg) },
        env := { s.env with outbound := [], hw := hr }, mem := t.mem,
        late := lateAfterReset s (heldAfterClear (rrdSlots s) (reachAll s)), posted := postedAfterReset s,
        result := .ok, trace := t.trace } ∧
      (newActs t s).filter isRelease = (s.env.outbound ++ inFlight s.tx.mbuf).map (.release · false) ∧
      ((ringRegions s).Pairwise (fun p q => apart p q = true) →
        ∀ a, inRange s.rx.rfdPhys (rfdBytes s.cfg) a = true → readByte t.mem a = readByte s.mem a) ∧
      ZeroBytes t.mem s.tx.ringPhys (txBytes s.cfg) ∧ ZeroBytes t.mem s.rx.rrdPhys (rrdBytes s.cfg) ∧
      SameBytesOutside t s [{ base := s.tx.ringPhys, size := txBytes s.cfg },
        { base := s.rx.rrdPhys, size := rrdBytes s.cfg }]

/-- R244: a timeout inside `LINK.UP` or `LINK.DOWN` is reported as `FAIL` and leaves the interface disabled with
nothing held. That the MAC is halted then is the model's choice, log entry 9. The MAC may see the zeroed rings late (20_memory.md
R88; which stores can be late is the model's choice, log entry 11), and no doorbell write is posted behind the flush (R91). -/
def Obligations.LinkTimeoutDisables : Prop :=
  ∀ (s : State) (d : DeviceRegs) (k : Nat) (hr : List HwAnswer), s.env.during = [] → s.flags.enabled = true →
    (s.flags.linkUp = false → s.linkArg.valid = true → s.env.hw = .timeout d :: hr →
      ∃ t, exec .linkUp s = .next t ∧ t.result = .fail ∧ mode t = .disabled ∧ NoRings t ∧
        t.late = heldAfterClear (rrdSlots s ++ rfdSlots s) (reachAll s) ∧ t.posted = [] ∧
        t.link = Link.down ∧ t.intrMask = 0#32 ∧ t.mac.regs.imr = 0#32 ∧ t.mac.started = false ∧
        .raised .cfgTimeout ∈ newActs t s ∧
        t.env = { s.env with outbound := [], hw := t.env.hw, draws := t.env.draws,
                             live := s.env.live.diff (freedRegions s) } ∧ SameLongLived t s) ∧
    (k < 3 → s.env.hw = List.replicate k .ok ++ .timeout d :: hr →
      ∃ t, exec .linkDown s = .next t ∧ t.result = .fail ∧ mode t = .disabled ∧ NoRings t ∧
        (s.late = [] → s.env.slowBus = false → t.late = []) ∧ t.posted = [] ∧
        t.link = Link.down ∧ t.intrMask = 0#32 ∧ t.mac.regs.imr = 0#32 ∧ t.mac.started = false ∧
        .raised .cfgTimeout ∈ newActs t s ∧
        t.env = { s.env with outbound := [], hw := t.env.hw, draws := t.env.draws,
                             live := s.env.live.diff (freedRegions s) } ∧ SameLongLived t s)

/-- R261: `MEDIUM.SELECT` refuses half-duplex gigabit with no change; disabled it records the medium; with the link down it
advertises it, and a timeout there fails without disabling; with the link up it goes through `LINK.DOWN` first. That a
`HwSetAdvertise` which times out leaves the MAC as it was, its advertisement included, is the model's choice, log entry 9. -/
def Obligations.MediumSelectRecordsAndAdvertises : Prop :=
  ∀ (s : State) (m : BitVec 5) (d : DeviceRegs) (hr : List HwAnswer),
    (mediumLegal m = false →
      exec (.mediumSelect m) s = .next { s with result := .fail, trace := .raised .cfgInvalidMedium :: s.trace }) ∧
    (mediumLegal m = true →
      (s.flags.enabled = false → exec (.mediumSelect m) s = .next { s with medium := m, result := .ok }) ∧
      (s.flags.enabled = true → s.flags.linkUp = false → s.env.hw = .ok :: hr →
        exec (.mediumSelect m) s = .next { s with
          medium := m, link := Link.down, mac := { s.mac with advertised := m }, env := { s.env with hw := hr },
          result := .ok, trace := .hw (.setAdvertise m) true :: s.trace }) ∧
      (s.flags.enabled = true → s.flags.linkUp = false → s.env.hw = .timeout d :: hr →
        exec (.mediumSelect m) s = .next { s with
          medium := m, link := Link.down, env := { s.env with hw := hr }, result := .fail,
          trace := .raised .cfgTimeout :: .hw (.setAdvertise m) false :: s.trace }) ∧
      (s.flags.enabled = true → s.flags.linkUp = true → s.env.hw = .ok :: .ok :: .ok :: .ok :: hr →
        ∃ t u, exec .linkDown { s with medium := m } = .next u ∧ u.result = .ok ∧
          exec (.mediumSelect m) s = .next t ∧
          t = { u with mac := { u.mac with advertised := m }, env := { u.env with hw := hr }, result := .ok,
                       trace := .hw (.setAdvertise m) true :: u.trace }))

/-- R262: one tick of the deadlock monitor in each of its cases. -/
def Obligations.WatchdogTickCases : Prop :=
  ∀ s : State,
    (¬(s.flags.enabled = true ∧ s.flags.wdtArmed = true) → exec .wdtTick s = .next { s with result := .returned }) ∧
    (s.flags.enabled = true → s.flags.wdtArmed = true →
      (¬(s.tx.doneCount = s.wdt.lastDone ∧ s.tx.numFree.toInt < s.cfg.nTx) →
        exec .wdtTick s = .next { s with
          wdt := { lastDone := s.tx.doneCount, stallTicks := 0 }, result := .returned }) ∧
      (s.tx.doneCount = s.wdt.lastDone → s.tx.numFree.toInt < s.cfg.nTx →
        (s.wdt.stallTicks + 1 ≠ s.cfg.wdtStallThreshold →
          exec .wdtTick s = .next { s with
            wdt := { lastDone := s.tx.doneCount, stallTicks := s.wdt.stallTicks + 1 }, result := .returned }) ∧
        (s.wdt.stallTicks + 1 = s.cfg.wdtStallThreshold →
          ∃ t u, exec .devReset { s with
              wdt := { s.wdt with stallTicks := s.wdt.stallTicks + 1 },
              stats := { s.stats with resetCount := s.stats.resetCount + 1 },
              trace := .log .transmitDeadlock :: .raised .hwDeadlock :: s.trace } = .next u ∧
            exec .wdtTick s = .next t ∧ t = { u with result := .returned } ∧
            t.flags.linkUp = false ∧ t.flags.wdtArmed = false ∧
            (s.env.during = [] → t.stats = { s.stats with resetCount := s.stats.resetCount + 1 }))))

/-- R265: from an armed watchdog, `k` stalled ticks below the threshold only count; the tick at the threshold raises the
deadlock once, and no later tick does anything. -/
def Obligations.DeadlockFiresAtTheThreshold : Prop :=
  ∀ s : State, s.cfg.valid = true → s.flags.enabled = true → s.flags.wdtArmed = true →
    s.wdt = { lastDone := s.tx.doneCount, stallTicks := 0 } → s.tx.numFree.toInt < s.cfg.nTx →
    (∀ k, 0 < k → k < s.cfg.wdtStallThreshold →
      ticks k s = .next { s with wdt := { lastDone := s.tx.doneCount, stallTicks := k }, result := .returned }) ∧
    ∃ t, ticks s.cfg.wdtStallThreshold s = .next t ∧ t.stats.resetCount = s.stats.resetCount + 1 ∧
      t.flags.wdtArmed = false ∧ t.wdt.stallTicks = s.cfg.wdtStallThreshold ∧
      ∀ j, ticks (s.cfg.wdtStallThreshold + j) s = .next t

/-! ### Interrupts and polling (60_exceptions.md) -/

/-- R249 to R253: a dispatch with no fatal and no link bit, and no engine bit to serve (or poll mode on), acknowledges
what it read, logs an alert, and re-enables the line: entry and exit writes and nothing else; disabled, it touches
nothing. A source that occurs between the read and the entry write stays pending. Where another agent may step is the
model's choice, log entry 11. -/
def Obligations.DispatchAcknowledgesWhatItRead : Prop :=
  ∀ (s : State) (late : Word),
    (s.flags.enabled = false → exec .irqDispatch s = .next { s with result := .returned }) ∧
    (s.flags.enabled = true → s.env.during = [] →
      s.mac.regs.isr &&& s.cfg.isr.fatal = 0#32 → s.mac.regs.isr &&& s.cfg.isr.link = 0#32 →
      (s.flags.pollMode = true ∨ s.mac.regs.isr &&& s.cfg.isr.tx = 0#32 ∧ s.mac.regs.isr &&& s.cfg.isr.rx = 0#32) →
      exec .irqDispatch s = .next { s with
        mac := { s.mac with regs := { s.mac.regs with isr := 0#32 } }, result := .returned,
        trace := .regWrite s.cfg.regmap.isr.offset s.cfg.regmap.isr.width 0#32 ::
          ((if s.mac.regs.isr &&& s.cfg.isr.alert = 0#32 then [] else [.log .alert]) ++
          .regWrite s.cfg.regmap.isr.offset s.cfg.regmap.isr.width (s.mac.regs.isr ||| s.cfg.isr.dis) :: s.trace) }) ∧
    (s.flags.enabled = true → s.env.during = [[.mac (.status late)]] → s.mac.regs.isr = 0#32 →
      late &&& s.cfg.isr.dis = 0#32 →
      ∃ t, exec .irqDispatch s = .next t ∧ t.mac.regs.isr = late ∧ t.flags = s.flags ∧ t.tx = s.tx ∧ t.rx = s.rx ∧
        t.mem = s.mem ∧ t.stats = s.stats)

/-- R249 step 1, R250: a fatal bit pre-empts every other source: the event is counted and logged and `DEV.RESET` runs on the
acknowledged state; no engine runs and there is no exit write. -/
def Obligations.FatalInterruptResets : Prop :=
  ∀ s : State, s.flags.enabled = true → s.env.during = [] → s.mac.regs.isr &&& s.cfg.isr.fatal ≠ 0#32 →
    ∃ t u, exec .devReset { dispatchEntry s with
        stats := { s.stats with resetCount := s.stats.resetCount + 1 },
        trace := .log .fatalInterrupt :: .raised .hwFatal ::
          .regWrite s.cfg.regmap.isr.offset s.cfg.regmap.isr.width (s.mac.regs.isr ||| s.cfg.isr.dis) :: s.trace } =
        .next u ∧
      exec .irqDispatch s = .next t ∧ t = { u with result := .returned } ∧
      t.stats = { s.stats with resetCount := s.stats.resetCount + 1 } ∧ t.tx.doneCount = s.tx.doneCount ∧
      t.flags.linkUp = false ∧ t.flags.wdtArmed = false ∧ t.medium = s.medium

/-- R249 steps 2 to 4, R204, R253 (d): a dispatch without a fatal bit, whatever other bits it read, alone or together: the entry
write; an alert is logged; with poll mode off, a reclaim if the transmit bit is set, and if the receive bit is set a drain of at
most `N_RRD` completions and a flush when any frame was delivered; with the link bit, link evaluation; the exit write. -/
def Obligations.DispatchServesTheEngines : Prop :=
  ∀ s e u v w x : State, s.cfg.valid = true → s.flags.enabled = true → s.env.during = [] →
    let status := s.mac.regs.isr
    status &&& s.cfg.isr.fatal = 0#32 →
    e = { s with
      mac := { s.mac with regs := { s.mac.regs with isr := isrWrite s.cfg.isr.dis status (status ||| s.cfg.isr.dis) } },
      trace := (if status &&& s.cfg.isr.alert = 0#32 then [] else [.log .alert]) ++
        .regWrite s.cfg.regmap.isr.offset s.cfg.regmap.isr.width (status ||| s.cfg.isr.dis) :: s.trace } →
    (if s.flags.pollMode = false ∧ status &&& s.cfg.isr.tx ≠ 0#32 then exec .txReclaim e = .next u else u = e) →
    (if s.flags.pollMode = false ∧ status &&& s.cfg.isr.rx ≠ 0#32
      then exec (.rxDrain (BitVec.ofNat 24 s.cfg.nRrd)) u = .next v ∧
        w = { v with trace := (if 0 < countOf v.result then [.flushBatch] else []) ++ v.trace }
      else w = u) →
    (if status &&& s.cfg.isr.link = 0#32 then x = w else linkEval w = .next x) →
    ∃ t, exec .irqDispatch s = .next t ∧
      t = { x with
        mac := { x.mac with regs := { x.mac.regs with isr := isrWrite s.cfg.isr.dis x.mac.regs.isr 0#32 } },
        result := .returned,
        trace := .regWrite s.cfg.regmap.isr.offset s.cfg.regmap.isr.width 0#32 :: x.trace }

/-- R256: link evaluation, through a dispatch whose status has the link bit alone: nothing changes when the PHY reports what is
known; a link that came up is brought up; a lost one is taken down; a renegotiated one is taken down and brought up again in
the same dispatch. -/
def Obligations.LinkChangeIsEvaluated : Prop :=
  ∀ (s : State) (a : Option Link) (pr : List (Option Link)) (hr : List HwAnswer),
    s.flags.enabled = true → s.env.during = [] → s.mac.regs.isr &&& s.cfg.isr.link ≠ 0#32 →
    s.mac.regs.isr &&& s.cfg.isr.fatal = 0#32 → s.mac.regs.isr &&& s.cfg.isr.alert = 0#32 →
    s.mac.regs.isr &&& s.cfg.isr.tx = 0#32 → s.mac.regs.isr &&& s.cfg.isr.rx = 0#32 → s.env.phy = a :: pr →
    (a = none ∧ s.flags.linkUp = false ∨ (∃ p, a = some p ∧ p.valid = true ∧ p = s.link ∧ s.flags.linkUp = true) →
      ∃ t, exec .irqDispatch s = .next t ∧
        t = { s with
          mac := { s.mac with regs := { s.mac.regs with isr := 0#32 } }, env := { s.env with phy := pr },
          result := .returned, trace := t.trace }) ∧
    (∀ p, a = some p → p.valid = true → s.flags.linkUp = false → s.env.hw = .ok :: hr →
      ∃ t, exec .irqDispatch s = .next t ∧ t.link = p ∧ t.flags = { s.flags with linkUp := true, wdtArmed := true } ∧
        t.intrMask = imrFull s.cfg ∧ t.mac.regs.imr = imrFull s.cfg ∧ t.mac.regs.isr = 0#32 ∧
        t.mac.startedWith = some p ∧ t.wdt = { lastDone := s.tx.doneCount, stallTicks := 0 } ∧
        t.env.resumable = true ∧ t.tx = s.tx ∧ t.rx = s.rx ∧ t.mem = s.mem) ∧
    (a = none → s.flags.linkUp = true → s.env.hw = .ok :: .ok :: .ok :: hr →
      ∃ t, exec .irqDispatch s = .next t ∧ t.link = Link.down ∧
        t.flags = { s.flags with linkUp := false, wdtArmed := false } ∧ t.intrMask = imrDown s.cfg ∧
        t.mac.regs = freshRegs s.cfg (imrDown s.cfg) ∧ t.env.outbound = [] ∧
        t.tx.numFree = BitVec.ofNat 32 s.cfg.nTx ∧ t.tx.next = 0#16 ∧ t.tx.dirty = 0#16 ∧ t.rx.mbuf = s.rx.mbuf) ∧
    (∀ p, a = some p → p.valid = true → s.flags.linkUp = true → p ≠ s.link →
      s.env.hw = .ok :: .ok :: .ok :: .ok :: hr →
      ∃ t, exec .irqDispatch s = .next t ∧ t.link = p ∧ t.flags = { s.flags with linkUp := true, wdtArmed := true } ∧
        t.intrMask = imrFull s.cfg ∧ t.mac.regs = freshRegs s.cfg (imrFull s.cfg) ∧ t.mac.startedWith = some p ∧
        t.env.outbound = [] ∧ t.tx.numFree = BitVec.ofNat 32 s.cfg.nTx ∧ t.tx.next = 0#16 ∧ t.tx.dirty = 0#16)

/-- R254, R255: `POLL.MODE` sets the flag alone and is refused while disabled; `POLL.SERVICE` outside poll mode returns 0 with
no effect, in poll mode it is a reclaim followed by a drain; with nothing completed and nothing ready it ends at once. -/
def Obligations.PollOperations : Prop :=
  ∀ (s : State) (on : Bool) (b : BitVec 24),
    exec (.pollMode on) s = .next (if s.flags.enabled
      then { s with flags := { s.flags with pollMode := on }, result := .returned }
      else { s with result := .refused }) ∧
    (¬(s.flags.enabled = true ∧ s.flags.pollMode = true) →
      exec (.pollService b) s = .next { s with result := .count 0 }) ∧
    (s.flags.enabled = true → s.flags.pollMode = true →
      exec (.pollService b) s = andThen (exec .txReclaim s) (exec (.rxDrain b)) ∧
      (DrainReady s → hwConsumer s = s.tx.dirty → s.tx.stalled = false → isUpdated s.cfg (rrdFlagWord s) = false →
        exec (.pollService b) s = .next { s with
          result := .count 0, pool := { s.pool with refillPending := refillFlag s.cfg s.pool },
          trace := if decide (s.pool.spare.length < s.cfg.spareLowWater) && !s.pool.refillPending
            then .refillScheduled :: s.trace else s.trace }))

/-- R270: what each operation answers in a mode where its precondition fails: refused with no effect, or the no-op the
table names. The answers to a direct request of a ring operation where rings or their absence forbid it are the model's
choice, log entry 13. -/
def Obligations.ModeTableRefusals : Prop :=
  ∀ (s : State) (b : BitVec 24) (on : Bool),
    (mode s = .disabled →
      exec .txReclaim s = .next { s with result := .refused } ∧ exec (.rxDrain b) s = .next { s with result := .refused } ∧
      exec (.pollMode on) s = .next { s with result := .refused } ∧ exec .linkUp s = .next { s with result := .refused } ∧
      exec .linkDown s = .next { s with result := .refused } ∧ exec .devReset s = .next { s with result := .refused } ∧
      exec .irqDispatch s = .next { s with result := .returned } ∧ exec .wdtTick s = .next { s with result := .returned } ∧
      exec (.pollService b) s = .next { s with result := .count 0 } ∧
      exec .devDisable s = .next { s with result := .ok }) ∧
    (mode s = .up → exec .linkUp s = .next { s with result := .refused }) ∧
    (mode s ≠ .disabled →
      exec .devEnable s = .next { s with result := .fail } ∧ exec .ringSetup s = .next { s with result := .refused } ∧
      exec .ringTeardown s = .next { s with result := .refused }) ∧
    (s.flags.ringsUp = false →
      exec .txClear s = .next { s with result := .refused } ∧ exec .rxReset s = .next { s with result := .refused } ∧
      exec .ringTeardown s = .next { s with result := .refused }) ∧
    (s.flags.ringsUp = true → s.flags.enabled = false → exec .ringSetup s = .next { s with result := .refused })

/-- 93_implementation_defined.md U1 to U8, U10, U14 and U22: the situations the spec gives no meaning stop by name. Of U7
the frame too short for its fix-up is stated, and of U8 the parameters of a requested `LINK.UP`. Which situation is tested first
where several hold is the model's choice, log entry 15; how a MAC that never stops is told from one that does, log entry 19. -/
def Obligations.SituationsWithoutMeaningStop : Prop :=
  ∀ (s : State) (m : TsoMode),
    (s.puller = .idle → s.frameArg.tsoMode ≠ m → exec (txqOf m) s = .refused .wrongOffload) ∧
    (s.puller = .idle → s.frameArg.tsoMode = m → m ≠ .none → mssInRange s.cfg s.frameArg.mss = false →
      exec (txqOf m) s = .refused .mssOutOfRange) ∧
    (∀ segs, s.puller = .idle → s.frameArg.tsoMode = m → mssInRange s.cfg s.frameArg.mss = true →
      s.flags.enabled = true → s.flags.linkUp = true → sgMap s s.frameArg = some segs → segs ≠ [] →
      (s.cfg.txSafetyMargin : Int) ≤ s.tx.numFree.toInt - descNeed m segs → aligned8 s.tx.ringPhys = true →
      (m = .tso4 ∧ frameAddr segs 17 = none ∨ m = .tso4 ∧ (∃ b14, frameByte s.mem segs 14 = some b14 ∧
          frameAddr segs (14 + 4 * (b14.toNat % 16) + 17) = none) ∨
        m = .tso6 ∧ (frameAddr segs 19 = none ∨ frameAddr segs (s.cfg.minL4OffV6 + 17) = none)) →
      exec (txqOf m) s = .refused .frameTooShort) ∧
    (s.flags.enabled = true → consumerInside s = false → exec .txReclaim s = .refused .consumerIndexOutside) ∧
    (DrainReady s → isUpdated s.cfg (rrdFlagWord s) = true →
      ((rrdCompletion s).count = 0 → exec (.rxDrain 1#24) s = .refused .completionCountZero) ∧
      ((rrdCompletion s).count ≠ 0 → (rrdCompletion s).start ≠ s.rx.free →
        exec (.rxDrain 1#24) s = .refused .completionStartIndex) ∧
      ((rrdCompletion s).count ≠ 0 → (rrdCompletion s).start = s.rx.free → (rrdCompletion s).len < s.cfg.crcLen →
        exec (.rxDrain 1#24) s = .refused .completionTooShort) ∧
      (contractProblem (rrdCompletion s) s = none → ¬(1 < (rrdCompletion s).count ∧ s.cfg.jumboSupport = false) →
        (rrdCompletion s).err &&& s.cfg.rxDropMask = 0#32 → fits (rrdCompletion s) s.cfg = false →
        exec (.rxDrain 1#24) s = .refused .completionMisfit)) ∧
    (s.flags.enabled = true → s.flags.linkUp = false → s.linkArg.valid = false →
      exec .linkUp s = .refused .invalidLink) ∧
    (s.flags.ringsUp = true → s.mac.started = true →
      exec .txClear s = .refused .macRunning ∧ exec .rxReset s = .refused .macRunning ∧
      (s.flags.enabled = false → exec .ringTeardown s = .refused .macRunning)) ∧
    (s.flags.enabled = true → aligned8 s.rx.rrdPhys = true → aligned8 s.rx.rfdPhys = true → s.env.during = [] →
      s.env.ceaseless = true → s.mac.started = true → isUpdated s.cfg (rrdFlagWord s) = false →
      exec (.rxDrain 0xFFFFFF#24) s = .fault .drainUnbounded)

/-! ### Invariants of the whole machine -/

/-- Every step keeps host memory in its canonical form, whatever other agents do and answer. The canonical form is the
model's, log entry 5. -/
def Obligations.StepKeepsMemoryCanonical : Prop :=
  ∀ s t : State, MemorySound s → step s = .next t → MemorySound t

/-- 10_state.md R47, R21, R22: every step keeps ring conservation and the cursor bounds. -/
def Obligations.StepKeepsRingConservation : Prop :=
  ∀ s t : State, TxSound s → step s = .next t → TxSound t

/-- 60_exceptions.md R267, R269: every step keeps the mode table: in each mode the MAC, `IMR` and its mirror, the watchdog, the
poll flag and, while enabled, the rings are as the table says; with the link down the transmit side is clean, empty with every
slot free and no frame held. Of "clean" the receive rings are left out: the MAC runs in that mode too and may complete a frame
(10_state.md R58). Of the row of DISABLED the entry "rings exist: no" is left out,
because a direct `RING.SETUP` builds rings in that mode (the model's choice, log entry 13); that a `HwMacReset` which times out
sets no bit of `IMR` is the model's choice too, log entry 9. -/
def Obligations.StepKeepsTheModeTable : Prop :=
  ∀ s t : State, ModeSound s → step s = .next t → ModeSound t

/-- 10_state.md R49, R23, R35 and 43_buffer_pool.md R229, R230: every step keeps each receive slot posted with a fit buffer,
the pool within its bound, and every buffer in one place only; from such a state no step finds a slot without its buffer. -/
def Obligations.StepKeepsBuffersPostedAndOwnedOnce : Prop :=
  ∀ s : State, RxSound s → OwnedOnce s →
    (∀ t, step s = .next t → RxSound t ∧ OwnedOnce t) ∧ step s ≠ .fault .noBufferPosted

/-- 10_state.md R34, 20_memory.md R86, R89, R92, R94, R95 and 70_reset_and_hazards.md R294: every step keeps the address of each
posted buffer in its free descriptor, EOP and the address of the last segment in the descriptor of each slot that tracks a
frame, the regions the core holds apart from each other and from every other region given out, a running MAC told of the rings
as they are, and no store late that a published descriptor waits for. And it changes no byte of a frame in flight that it does
not release, where that byte is not in memory the core itself holds, which no address test keeps a frame out of
(60_exceptions.md R272). What an allocator can answer is the model's choice, log entry 8, and so is which stores can be late,
log entry 11. Where a TSO header fix-up of the step stores to memory that is not its frame's own (`t.foreign` is not
`s.foreign`), what that leaves is a free value, log entry 23: of such a step only what rests on no byte is stated. -/
def Obligations.StepKeepsTheTrackingInvariant : Prop :=
  ∀ s t : State, TxSound s → ModeSound s → RxSound s → MemorySound s → TrackingSound s → step s = .next t →
    RegionsSound t ∧ MacSound t ∧ LateSound t ∧
    (t.foreign = s.foreign → TrackingSound t) ∧
    (t.foreign = s.foreign → s.flags.ringsUp = true → ∀ f ∈ inFlight s.tx.mbuf, NotReleased t s f →
      ∀ r ∈ frameRegions f, ∀ a, inRange r.base r.size a = true →
        (∀ q ∈ coreRegions s, inRange q.base q.size a = false) → readByte t.mem a = readByte s.mem a)

/-- 70_reset_and_hazards.md R281 with 10_state.md R54 column (a): the state after power-on has the values the spec gives, is
disabled, and meets every invariant. The invariants rest besides on values the model chose for power-on: the MAC's registers
(log entry 4) and the contents of memory (log entry 5). -/
def Obligations.PowerOnStateIsSound : Prop :=
  Sound State.reset ∧ mode State.reset = .disabled ∧
  State.reset.flags =
    { enabled := false, linkUp := false, pollMode := false, wdtArmed := false, ringsUp := false } ∧
  State.reset.tx.next = 0#16 ∧ State.reset.tx.dirty = 0#16 ∧
  State.reset.tx.numFree = 0#32 ∧ State.reset.tx.doneCount = 0#32 ∧ State.reset.tx.stalled = false ∧
  State.reset.tx.mbuf = [] ∧ State.reset.rx.mbuf = [] ∧ State.reset.rx.next = 0#16 ∧ State.reset.rx.free = 0#16 ∧
  State.reset.pool = { spare := [], refillPending := false } ∧
  State.reset.stats = Stats.zero ∧ State.reset.wdt = { lastDone := 0#32, stallTicks := 0 } ∧
  State.reset.link = Link.down ∧ State.reset.medium = 0#5 ∧ State.reset.intrMask = 0#32

/-- 00_scope.md R9, 10_state.md R25, R36, R38 and 60_exceptions.md R240: no step writes the configuration or lowers a statistic,
and each statistic goes up by 1 for every raising of its event, or every frame handed to the STACK, and for nothing else. Of the
operations only the three `TXQ` and `TX.PULL`, and a PULLER that steps inside another in the pull model (41_transmit.md R183), count
a gate drop or a resource drop, and only the `TXQ` a stall; only `RX.DRAIN`, and with it `POLL.SERVICE` and `IRQ.DISPATCH`, the four
receive counters; only `WDT.TICK` and `IRQ.DISPATCH` a reset, and one at most. Of what else a step can be only the PULLER's counts
anything: the two drops. Only `MEDIUM.SELECT` with a legal code writes the selected medium; only the operations that reclaim change
the completion counter. That the configuration stands in the state is the model's choice, log entry 1; that a `TXQ` can count a
stall in the pull model too is log entry 14. -/
def Obligations.LongLivedStateHasItsWriters : Prop :=
  (∀ s t : State, step s = .next t →
    t.cfg = s.cfg ∧ StatsGrow t s ∧ StatsCountActs t s ∧
    ∀ e rest, s.pending = e :: rest → (∀ r, e ≠ .op r) → if e = .pull then OnlyPullCounts t s else t.stats = s.stats) ∧
  (∀ s t : State, finishPull s = .next t → OnlyPullCounts t s) ∧
  ∀ (i : Instr) (s t : State), exec i s = .next t →
    let transmits := i = .txPull ∨ ∃ m, i = txqOf m
    let drains := i = .irqDispatch ∨ ∃ b, i = .rxDrain b ∨ i = .pollService b
    StatsCountActs t s ∧
    (t.stats.txDrop = s.stats.txDrop ∧ t.stats.txResErr = s.stats.txResErr ∨ transmits ∨
      s.cfg.txSched = .pull ∧ ¬NoPull s) ∧
    (t.stats.txStall = s.stats.txStall ∨ ∃ m, i = txqOf m) ∧
    (t.stats.rxLenErr = s.stats.rxLenErr ∧ t.stats.rxErr = s.stats.rxErr ∧ t.stats.rxResErr = s.stats.rxResErr ∧
      t.stats.rxDelivered = s.stats.rxDelivered ∨ drains) ∧
    (t.stats.resetCount = s.stats.resetCount ∨
      (i = .wdtTick ∨ i = .irqDispatch) ∧ t.stats.resetCount = s.stats.resetCount + 1) ∧
    (t.medium = s.medium ∨ ∃ m, i = .mediumSelect m ∧ mediumLegal m = true ∧ t.medium = m) ∧
    (t.tx.doneCount = s.tx.doneCount ∨ i = .txReclaim ∨ i = .irqDispatch ∨ ∃ b, i = .pollService b)

/-- 60_exceptions.md R258, 95_test_vectors.md S10: no operation that starts with the gate closed writes the transmit doorbell.
An operation that brings the link up opens the gate, and a PULLER that steps inside it then (41_transmit.md R183) is left out. -/
def Obligations.NoDoorbellWhileTheLinkIsDown : Prop :=
  ∀ (i : Instr) (s t : State), (i = .linkUp ∨ i = .irqDispatch → NoPull s) → s.cfg.regmap.valid = true → s.flags.linkUp = false →
    exec i s = .next t →
    countActs (isWriteTo s.cfg.regmap.tpdPidx.offset) t = countActs (isWriteTo s.cfg.regmap.tpdPidx.offset) s
end

