-- ==== Sys2Proof/Laws/State.lean ====
section
/-! SUPPORT. One lemma per field per update of the state, each true by rfl, so that no proof unfolds a record update. -/

namespace Sys2Proof.Machine

@[simp] theorem State.setTx_cfg (s : State) (v : TxSide) : (s.setTx v).cfg = s.cfg := rfl
@[simp] theorem State.setTx_tx (s : State) (v : TxSide) : (s.setTx v).tx = v := rfl
@[simp] theorem State.setTx_rx (s : State) (v : TxSide) : (s.setTx v).rx = s.rx := rfl
@[simp] theorem State.setTx_pool (s : State) (v : TxSide) : (s.setTx v).pool = s.pool := rfl
@[simp] theorem State.setTx_flags (s : State) (v : TxSide) : (s.setTx v).flags = s.flags := rfl
@[simp] theorem State.setTx_stats (s : State) (v : TxSide) : (s.setTx v).stats = s.stats := rfl
@[simp] theorem State.setTx_wdt (s : State) (v : TxSide) : (s.setTx v).wdt = s.wdt := rfl
@[simp] theorem State.setTx_link (s : State) (v : TxSide) : (s.setTx v).link = s.link := rfl
@[simp] theorem State.setTx_medium (s : State) (v : TxSide) : (s.setTx v).medium = s.medium := rfl
@[simp] theorem State.setTx_intrMask (s : State) (v : TxSide) : (s.setTx v).intrMask = s.intrMask := rfl
@[simp] theorem State.setTx_mac (s : State) (v : TxSide) : (s.setTx v).mac = s.mac := rfl
@[simp] theorem State.setTx_mem (s : State) (v : TxSide) : (s.setTx v).mem = s.mem := rfl
@[simp] theorem State.setTx_late (s : State) (v : TxSide) : (s.setTx v).late = s.late := rfl
@[simp] theorem State.setTx_posted (s : State) (v : TxSide) : (s.setTx v).posted = s.posted := rfl
@[simp] theorem State.setTx_puller (s : State) (v : TxSide) : (s.setTx v).puller = s.puller := rfl
@[simp] theorem State.setTx_foreign (s : State) (v : TxSide) : (s.setTx v).foreign = s.foreign := rfl
@[simp] theorem State.setTx_env (s : State) (v : TxSide) : (s.setTx v).env = s.env := rfl
@[simp] theorem State.setTx_frameArg (s : State) (v : TxSide) : (s.setTx v).frameArg = s.frameArg := rfl
@[simp] theorem State.setTx_linkArg (s : State) (v : TxSide) : (s.setTx v).linkArg = s.linkArg := rfl
@[simp] theorem State.setTx_pending (s : State) (v : TxSide) : (s.setTx v).pending = s.pending := rfl
@[simp] theorem State.setTx_result (s : State) (v : TxSide) : (s.setTx v).result = s.result := rfl
@[simp] theorem State.setTx_trace (s : State) (v : TxSide) : (s.setTx v).trace = s.trace := rfl
@[simp] theorem State.setRx_cfg (s : State) (v : RxSide) : (s.setRx v).cfg = s.cfg := rfl
@[simp] theorem State.setRx_tx (s : State) (v : RxSide) : (s.setRx v).tx = s.tx := rfl
@[simp] theorem State.setRx_rx (s : State) (v : RxSide) : (s.setRx v).rx = v := rfl
@[simp] theorem State.setRx_pool (s : State) (v : RxSide) : (s.setRx v).pool = s.pool := rfl
@[simp] theorem State.setRx_flags (s : State) (v : RxSide) : (s.setRx v).flags = s.flags := rfl
@[simp] theorem State.setRx_stats (s : State) (v : RxSide) : (s.setRx v).stats = s.stats := rfl
@[simp] theorem State.setRx_wdt (s : State) (v : RxSide) : (s.setRx v).wdt = s.wdt := rfl
@[simp] theorem State.setRx_link (s : State) (v : RxSide) : (s.setRx v).link = s.link := rfl
@[simp] theorem State.setRx_medium (s : State) (v : RxSide) : (s.setRx v).medium = s.medium := rfl
@[simp] theorem State.setRx_intrMask (s : State) (v : RxSide) : (s.setRx v).intrMask = s.intrMask := rfl
@[simp] theorem State.setRx_mac (s : State) (v : RxSide) : (s.setRx v).mac = s.mac := rfl
@[simp] theorem State.setRx_mem (s : State) (v : RxSide) : (s.setRx v).mem = s.mem := rfl
@[simp] theorem State.setRx_late (s : State) (v : RxSide) : (s.setRx v).late = s.late := rfl
@[simp] theorem State.setRx_posted (s : State) (v : RxSide) : (s.setRx v).posted = s.posted := rfl
@[simp] theorem State.setRx_puller (s : State) (v : RxSide) : (s.setRx v).puller = s.puller := rfl
@[simp] theorem State.setRx_foreign (s : State) (v : RxSide) : (s.setRx v).foreign = s.foreign := rfl
@[simp] theorem State.setRx_env (s : State) (v : RxSide) : (s.setRx v).env = s.env := rfl
@[simp] theorem State.setRx_frameArg (s : State) (v : RxSide) : (s.setRx v).frameArg = s.frameArg := rfl
@[simp] theorem State.setRx_linkArg (s : State) (v : RxSide) : (s.setRx v).linkArg = s.linkArg := rfl
@[simp] theorem State.setRx_pending (s : State) (v : RxSide) : (s.setRx v).pending = s.pending := rfl
@[simp] theorem State.setRx_result (s : State) (v : RxSide) : (s.setRx v).result = s.result := rfl
@[simp] theorem State.setRx_trace (s : State) (v : RxSide) : (s.setRx v).trace = s.trace := rfl
@[simp] theorem State.setPool_cfg (s : State) (v : Pool) : (s.setPool v).cfg = s.cfg := rfl
@[simp] theorem State.setPool_tx (s : State) (v : Pool) : (s.setPool v).tx = s.tx := rfl
@[simp] theorem State.setPool_rx (s : State) (v : Pool) : (s.setPool v).rx = s.rx := rfl
@[simp] theorem State.setPool_pool (s : State) (v : Pool) : (s.setPool v).pool = v := rfl
@[simp] theorem State.setPool_flags (s : State) (v : Pool) : (s.setPool v).flags = s.flags := rfl
@[simp] theorem State.setPool_stats (s : State) (v : Pool) : (s.setPool v).stats = s.stats := rfl
@[simp] theorem State.setPool_wdt (s : State) (v : Pool) : (s.setPool v).wdt = s.wdt := rfl
@[simp] theorem State.setPool_link (s : State) (v : Pool) : (s.setPool v).link = s.link := rfl
@[simp] theorem State.setPool_medium (s : State) (v : Pool) : (s.setPool v).medium = s.medium := rfl
@[simp] theorem State.setPool_intrMask (s : State) (v : Pool) : (s.setPool v).intrMask = s.intrMask := rfl
@[simp] theorem State.setPool_mac (s : State) (v : Pool) : (s.setPool v).mac = s.mac := rfl
@[simp] theorem State.setPool_mem (s : State) (v : Pool) : (s.setPool v).mem = s.mem := rfl
@[simp] theorem State.setPool_late (s : State) (v : Pool) : (s.setPool v).late = s.late := rfl
@[simp] theorem State.setPool_posted (s : State) (v : Pool) : (s.setPool v).posted = s.posted := rfl
@[simp] theorem State.setPool_puller (s : State) (v : Pool) : (s.setPool v).puller = s.puller := rfl
@[simp] theorem State.setPool_foreign (s : State) (v : Pool) : (s.setPool v).foreign = s.foreign := rfl
@[simp] theorem State.setPool_env (s : State) (v : Pool) : (s.setPool v).env = s.env := rfl
@[simp] theorem State.setPool_frameArg (s : State) (v : Pool) : (s.setPool v).frameArg = s.frameArg := rfl
@[simp] theorem State.setPool_linkArg (s : State) (v : Pool) : (s.setPool v).linkArg = s.linkArg := rfl
@[simp] theorem State.setPool_pending (s : State) (v : Pool) : (s.setPool v).pending = s.pending := rfl
@[simp] theorem State.setPool_result (s : State) (v : Pool) : (s.setPool v).result = s.result := rfl
@[simp] theorem State.setPool_trace (s : State) (v : Pool) : (s.setPool v).trace = s.trace := rfl
@[simp] theorem State.setFlags_cfg (s : State) (v : Flags) : (s.setFlags v).cfg = s.cfg := rfl
@[simp] theorem State.setFlags_tx (s : State) (v : Flags) : (s.setFlags v).tx = s.tx := rfl
@[simp] theorem State.setFlags_rx (s : State) (v : Flags) : (s.setFlags v).rx = s.rx := rfl
@[simp] theorem State.setFlags_pool (s : State) (v : Flags) : (s.setFlags v).pool = s.pool := rfl
@[simp] theorem State.setFlags_flags (s : State) (v : Flags) : (s.setFlags v).flags = v := rfl
@[simp] theorem State.setFlags_stats (s : State) (v : Flags) : (s.setFlags v).stats = s.stats := rfl
@[simp] theorem State.setFlags_wdt (s : State) (v : Flags) : (s.setFlags v).wdt = s.wdt := rfl
@[simp] theorem State.setFlags_link (s : State) (v : Flags) : (s.setFlags v).link = s.link := rfl
@[simp] theorem State.setFlags_medium (s : State) (v : Flags) : (s.setFlags v).medium = s.medium := rfl
@[simp] theorem State.setFlags_intrMask (s : State) (v : Flags) : (s.setFlags v).intrMask = s.intrMask := rfl
@[simp] theorem State.setFlags_mac (s : State) (v : Flags) : (s.setFlags v).mac = s.mac := rfl
@[simp] theorem State.setFlags_mem (s : State) (v : Flags) : (s.setFlags v).mem = s.mem := rfl
@[simp] theorem State.setFlags_late (s : State) (v : Flags) : (s.setFlags v).late = s.late := rfl
@[simp] theorem State.setFlags_posted (s : State) (v : Flags) : (s.setFlags v).posted = s.posted := rfl
@[simp] theorem State.setFlags_puller (s : State) (v : Flags) : (s.setFlags v).puller = s.puller := rfl
@[simp] theorem State.setFlags_foreign (s : State) (v : Flags) : (s.setFlags v).foreign = s.foreign := rfl
@[simp] theorem State.setFlags_env (s : State) (v : Flags) : (s.setFlags v).env = s.env := rfl
@[simp] theorem State.setFlags_frameArg (s : State) (v : Flags) : (s.setFlags v).frameArg = s.frameArg := rfl
@[simp] theorem State.setFlags_linkArg (s : State) (v : Flags) : (s.setFlags v).linkArg = s.linkArg := rfl
@[simp] theorem State.setFlags_pending (s : State) (v : Flags) : (s.setFlags v).pending = s.pending := rfl
@[simp] theorem State.setFlags_result (s : State) (v : Flags) : (s.setFlags v).result = s.result := rfl
@[simp] theorem State.setFlags_trace (s : State) (v : Flags) : (s.setFlags v).trace = s.trace := rfl
@[simp] theorem State.setStats_cfg (s : State) (v : Stats) : (s.setStats v).cfg = s.cfg := rfl
@[simp] theorem State.setStats_tx (s : State) (v : Stats) : (s.setStats v).tx = s.tx := rfl
@[simp] theorem State.setStats_rx (s : State) (v : Stats) : (s.setStats v).rx = s.rx := rfl
@[simp] theorem State.setStats_pool (s : State) (v : Stats) : (s.setStats v).pool = s.pool := rfl
@[simp] theorem State.setStats_flags (s : State) (v : Stats) : (s.setStats v).flags = s.flags := rfl
@[simp] theorem State.setStats_stats (s : State) (v : Stats) : (s.setStats v).stats = v := rfl
@[simp] theorem State.setStats_wdt (s : State) (v : Stats) : (s.setStats v).wdt = s.wdt := rfl
@[simp] theorem State.setStats_link (s : State) (v : Stats) : (s.setStats v).link = s.link := rfl
@[simp] theorem State.setStats_medium (s : State) (v : Stats) : (s.setStats v).medium = s.medium := rfl
@[simp] theorem State.setStats_intrMask (s : State) (v : Stats) : (s.setStats v).intrMask = s.intrMask := rfl
@[simp] theorem State.setStats_mac (s : State) (v : Stats) : (s.setStats v).mac = s.mac := rfl
@[simp] theorem State.setStats_mem (s : State) (v : Stats) : (s.setStats v).mem = s.mem := rfl
@[simp] theorem State.setStats_late (s : State) (v : Stats) : (s.setStats v).late = s.late := rfl
@[simp] theorem State.setStats_posted (s : State) (v : Stats) : (s.setStats v).posted = s.posted := rfl
@[simp] theorem State.setStats_puller (s : State) (v : Stats) : (s.setStats v).puller = s.puller := rfl
@[simp] theorem State.setStats_foreign (s : State) (v : Stats) : (s.setStats v).foreign = s.foreign := rfl
@[simp] theorem State.setStats_env (s : State) (v : Stats) : (s.setStats v).env = s.env := rfl
@[simp] theorem State.setStats_frameArg (s : State) (v : Stats) : (s.setStats v).frameArg = s.frameArg := rfl
@[simp] theorem State.setStats_linkArg (s : State) (v : Stats) : (s.setStats v).linkArg = s.linkArg := rfl
@[simp] theorem State.setStats_pending (s : State) (v : Stats) : (s.setStats v).pending = s.pending := rfl
@[simp] theorem State.setStats_result (s : State) (v : Stats) : (s.setStats v).result = s.result := rfl
@[simp] theorem State.setStats_trace (s : State) (v : Stats) : (s.setStats v).trace = s.trace := rfl
@[simp] theorem State.setWdt_cfg (s : State) (v : Watchdog) : (s.setWdt v).cfg = s.cfg := rfl
@[simp] theorem State.setWdt_tx (s : State) (v : Watchdog) : (s.setWdt v).tx = s.tx := rfl
@[simp] theorem State.setWdt_rx (s : State) (v : Watchdog) : (s.setWdt v).rx = s.rx := rfl
@[simp] theorem State.setWdt_pool (s : State) (v : Watchdog) : (s.setWdt v).pool = s.pool := rfl
@[simp] theorem State.setWdt_flags (s : State) (v : Watchdog) : (s.setWdt v).flags = s.flags := rfl
@[simp] theorem State.setWdt_stats (s : State) (v : Watchdog) : (s.setWdt v).stats = s.stats := rfl
@[simp] theorem State.setWdt_wdt (s : State) (v : Watchdog) : (s.setWdt v).wdt = v := rfl
@[simp] theorem State.setWdt_link (s : State) (v : Watchdog) : (s.setWdt v).link = s.link := rfl
@[simp] theorem State.setWdt_medium (s : State) (v : Watchdog) : (s.setWdt v).medium = s.medium := rfl
@[simp] theorem State.setWdt_intrMask (s : State) (v : Watchdog) : (s.setWdt v).intrMask = s.intrMask := rfl
@[simp] theorem State.setWdt_mac (s : State) (v : Watchdog) : (s.setWdt v).mac = s.mac := rfl
@[simp] theorem State.setWdt_mem (s : State) (v : Watchdog) : (s.setWdt v).mem = s.mem := rfl
@[simp] theorem State.setWdt_late (s : State) (v : Watchdog) : (s.setWdt v).late = s.late := rfl
@[simp] theorem State.setWdt_posted (s : State) (v : Watchdog) : (s.setWdt v).posted = s.posted := rfl
@[simp] theorem State.setWdt_puller (s : State) (v : Watchdog) : (s.setWdt v).puller = s.puller := rfl
@[simp] theorem State.setWdt_foreign (s : State) (v : Watchdog) : (s.setWdt v).foreign = s.foreign := rfl
@[simp] theorem State.setWdt_env (s : State) (v : Watchdog) : (s.setWdt v).env = s.env := rfl
@[simp] theorem State.setWdt_frameArg (s : State) (v : Watchdog) : (s.setWdt v).frameArg = s.frameArg := rfl
@[simp] theorem State.setWdt_linkArg (s : State) (v : Watchdog) : (s.setWdt v).linkArg = s.linkArg := rfl
@[simp] theorem State.setWdt_pending (s : State) (v : Watchdog) : (s.setWdt v).pending = s.pending := rfl
@[simp] theorem State.setWdt_result (s : State) (v : Watchdog) : (s.setWdt v).result = s.result := rfl
@[simp] theorem State.setWdt_trace (s : State) (v : Watchdog) : (s.setWdt v).trace = s.trace := rfl
@[simp] theorem State.setLink_cfg (s : State) (v : Link) : (s.setLink v).cfg = s.cfg := rfl
@[simp] theorem State.setLink_tx (s : State) (v : Link) : (s.setLink v).tx = s.tx := rfl
@[simp] theorem State.setLink_rx (s : State) (v : Link) : (s.setLink v).rx = s.rx := rfl
@[simp] theorem State.setLink_pool (s : State) (v : Link) : (s.setLink v).pool = s.pool := rfl
@[simp] theorem State.setLink_flags (s : State) (v : Link) : (s.setLink v).flags = s.flags := rfl
@[simp] theorem State.setLink_stats (s : State) (v : Link) : (s.setLink v).stats = s.stats := rfl
@[simp] theorem State.setLink_wdt (s : State) (v : Link) : (s.setLink v).wdt = s.wdt := rfl
@[simp] theorem State.setLink_link (s : State) (v : Link) : (s.setLink v).link = v := rfl
@[simp] theorem State.setLink_medium (s : State) (v : Link) : (s.setLink v).medium = s.medium := rfl
@[simp] theorem State.setLink_intrMask (s : State) (v : Link) : (s.setLink v).intrMask = s.intrMask := rfl
@[simp] theorem State.setLink_mac (s : State) (v : Link) : (s.setLink v).mac = s.mac := rfl
@[simp] theorem State.setLink_mem (s : State) (v : Link) : (s.setLink v).mem = s.mem := rfl
@[simp] theorem State.setLink_late (s : State) (v : Link) : (s.setLink v).late = s.late := rfl
@[simp] theorem State.setLink_posted (s : State) (v : Link) : (s.setLink v).posted = s.posted := rfl
@[simp] theorem State.setLink_puller (s : State) (v : Link) : (s.setLink v).puller = s.puller := rfl
@[simp] theorem State.setLink_foreign (s : State) (v : Link) : (s.setLink v).foreign = s.foreign := rfl
@[simp] theorem State.setLink_env (s : State) (v : Link) : (s.setLink v).env = s.env := rfl
@[simp] theorem State.setLink_frameArg (s : State) (v : Link) : (s.setLink v).frameArg = s.frameArg := rfl
@[simp] theorem State.setLink_linkArg (s : State) (v : Link) : (s.setLink v).linkArg = s.linkArg := rfl
@[simp] theorem State.setLink_pending (s : State) (v : Link) : (s.setLink v).pending = s.pending := rfl
@[simp] theorem State.setLink_result (s : State) (v : Link) : (s.setLink v).result = s.result := rfl
@[simp] theorem State.setLink_trace (s : State) (v : Link) : (s.setLink v).trace = s.trace := rfl
@[simp] theorem State.setMedium_cfg (s : State) (v : BitVec 5) : (s.setMedium v).cfg = s.cfg := rfl
@[simp] theorem State.setMedium_tx (s : State) (v : BitVec 5) : (s.setMedium v).tx = s.tx := rfl
@[simp] theorem State.setMedium_rx (s : State) (v : BitVec 5) : (s.setMedium v).rx = s.rx := rfl
@[simp] theorem State.setMedium_pool (s : State) (v : BitVec 5) : (s.setMedium v).pool = s.pool := rfl
@[simp] theorem State.setMedium_flags (s : State) (v : BitVec 5) : (s.setMedium v).flags = s.flags := rfl
@[simp] theorem State.setMedium_stats (s : State) (v : BitVec 5) : (s.setMedium v).stats = s.stats := rfl
@[simp] theorem State.setMedium_wdt (s : State) (v : BitVec 5) : (s.setMedium v).wdt = s.wdt := rfl
@[simp] theorem State.setMedium_link (s : State) (v : BitVec 5) : (s.setMedium v).link = s.link := rfl
@[simp] theorem State.setMedium_medium (s : State) (v : BitVec 5) : (s.setMedium v).medium = v := rfl
@[simp] theorem State.setMedium_intrMask (s : State) (v : BitVec 5) : (s.setMedium v).intrMask = s.intrMask := rfl
@[simp] theorem State.setMedium_mac (s : State) (v : BitVec 5) : (s.setMedium v).mac = s.mac := rfl
@[simp] theorem State.setMedium_mem (s : State) (v : BitVec 5) : (s.setMedium v).mem = s.mem := rfl
@[simp] theorem State.setMedium_late (s : State) (v : BitVec 5) : (s.setMedium v).late = s.late := rfl
@[simp] theorem State.setMedium_posted (s : State) (v : BitVec 5) : (s.setMedium v).posted = s.posted := rfl
@[simp] theorem State.setMedium_puller (s : State) (v : BitVec 5) : (s.setMedium v).puller = s.puller := rfl
@[simp] theorem State.setMedium_foreign (s : State) (v : BitVec 5) : (s.setMedium v).foreign = s.foreign := rfl
@[simp] theorem State.setMedium_env (s : State) (v : BitVec 5) : (s.setMedium v).env = s.env := rfl
@[simp] theorem State.setMedium_frameArg (s : State) (v : BitVec 5) : (s.setMedium v).frameArg = s.frameArg := rfl
@[simp] theorem State.setMedium_linkArg (s : State) (v : BitVec 5) : (s.setMedium v).linkArg = s.linkArg := rfl
@[simp] theorem State.setMedium_pending (s : State) (v : BitVec 5) : (s.setMedium v).pending = s.pending := rfl
@[simp] theorem State.setMedium_result (s : State) (v : BitVec 5) : (s.setMedium v).result = s.result := rfl
@[simp] theorem State.setMedium_trace (s : State) (v : BitVec 5) : (s.setMedium v).trace = s.trace := rfl
@[simp] theorem State.setIntrMask_cfg (s : State) (v : Word) : (s.setIntrMask v).cfg = s.cfg := rfl
@[simp] theorem State.setIntrMask_tx (s : State) (v : Word) : (s.setIntrMask v).tx = s.tx := rfl
@[simp] theorem State.setIntrMask_rx (s : State) (v : Word) : (s.setIntrMask v).rx = s.rx := rfl
@[simp] theorem State.setIntrMask_pool (s : State) (v : Word) : (s.setIntrMask v).pool = s.pool := rfl
@[simp] theorem State.setIntrMask_flags (s : State) (v : Word) : (s.setIntrMask v).flags = s.flags := rfl
@[simp] theorem State.setIntrMask_stats (s : State) (v : Word) : (s.setIntrMask v).stats = s.stats := rfl
@[simp] theorem State.setIntrMask_wdt (s : State) (v : Word) : (s.setIntrMask v).wdt = s.wdt := rfl
@[simp] theorem State.setIntrMask_link (s : State) (v : Word) : (s.setIntrMask v).link = s.link := rfl
@[simp] theorem State.setIntrMask_medium (s : State) (v : Word) : (s.setIntrMask v).medium = s.medium := rfl
@[simp] theorem State.setIntrMask_intrMask (s : State) (v : Word) : (s.setIntrMask v).intrMask = v := rfl
@[simp] theorem State.setIntrMask_mac (s : State) (v : Word) : (s.setIntrMask v).mac = s.mac := rfl
@[simp] theorem State.setIntrMask_mem (s : State) (v : Word) : (s.setIntrMask v).mem = s.mem := rfl
@[simp] theorem State.setIntrMask_late (s : State) (v : Word) : (s.setIntrMask v).late = s.late := rfl
@[simp] theorem State.setIntrMask_posted (s : State) (v : Word) : (s.setIntrMask v).posted = s.posted := rfl
@[simp] theorem State.setIntrMask_puller (s : State) (v : Word) : (s.setIntrMask v).puller = s.puller := rfl
@[simp] theorem State.setIntrMask_foreign (s : State) (v : Word) : (s.setIntrMask v).foreign = s.foreign := rfl
@[simp] theorem State.setIntrMask_env (s : State) (v : Word) : (s.setIntrMask v).env = s.env := rfl
@[simp] theorem State.setIntrMask_frameArg (s : State) (v : Word) : (s.setIntrMask v).frameArg = s.frameArg := rfl
@[simp] theorem State.setIntrMask_linkArg (s : State) (v : Word) : (s.setIntrMask v).linkArg = s.linkArg := rfl
@[simp] theorem State.setIntrMask_pending (s : State) (v : Word) : (s.setIntrMask v).pending = s.pending := rfl
@[simp] theorem State.setIntrMask_result (s : State) (v : Word) : (s.setIntrMask v).result = s.result := rfl
@[simp] theorem State.setIntrMask_trace (s : State) (v : Word) : (s.setIntrMask v).trace = s.trace := rfl
@[simp] theorem State.setMac_cfg (s : State) (v : Mac) : (s.setMac v).cfg = s.cfg := rfl
@[simp] theorem State.setMac_tx (s : State) (v : Mac) : (s.setMac v).tx = s.tx := rfl
@[simp] theorem State.setMac_rx (s : State) (v : Mac) : (s.setMac v).rx = s.rx := rfl
@[simp] theorem State.setMac_pool (s : State) (v : Mac) : (s.setMac v).pool = s.pool := rfl
@[simp] theorem State.setMac_flags (s : State) (v : Mac) : (s.setMac v).flags = s.flags := rfl
@[simp] theorem State.setMac_stats (s : State) (v : Mac) : (s.setMac v).stats = s.stats := rfl
@[simp] theorem State.setMac_wdt (s : State) (v : Mac) : (s.setMac v).wdt = s.wdt := rfl
@[simp] theorem State.setMac_link (s : State) (v : Mac) : (s.setMac v).link = s.link := rfl
@[simp] theorem State.setMac_medium (s : State) (v : Mac) : (s.setMac v).medium = s.medium := rfl
@[simp] theorem State.setMac_intrMask (s : State) (v : Mac) : (s.setMac v).intrMask = s.intrMask := rfl
@[simp] theorem State.setMac_mac (s : State) (v : Mac) : (s.setMac v).mac = v := rfl
@[simp] theorem State.setMac_mem (s : State) (v : Mac) : (s.setMac v).mem = s.mem := rfl
@[simp] theorem State.setMac_late (s : State) (v : Mac) : (s.setMac v).late = s.late := rfl
@[simp] theorem State.setMac_posted (s : State) (v : Mac) : (s.setMac v).posted = s.posted := rfl
@[simp] theorem State.setMac_puller (s : State) (v : Mac) : (s.setMac v).puller = s.puller := rfl
@[simp] theorem State.setMac_foreign (s : State) (v : Mac) : (s.setMac v).foreign = s.foreign := rfl
@[simp] theorem State.setMac_env (s : State) (v : Mac) : (s.setMac v).env = s.env := rfl
@[simp] theorem State.setMac_frameArg (s : State) (v : Mac) : (s.setMac v).frameArg = s.frameArg := rfl
@[simp] theorem State.setMac_linkArg (s : State) (v : Mac) : (s.setMac v).linkArg = s.linkArg := rfl
@[simp] theorem State.setMac_pending (s : State) (v : Mac) : (s.setMac v).pending = s.pending := rfl
@[simp] theorem State.setMac_result (s : State) (v : Mac) : (s.setMac v).result = s.result := rfl
@[simp] theorem State.setMac_trace (s : State) (v : Mac) : (s.setMac v).trace = s.trace := rfl
@[simp] theorem State.setMem_cfg (s : State) (v : Memory) : (s.setMem v).cfg = s.cfg := rfl
@[simp] theorem State.setMem_tx (s : State) (v : Memory) : (s.setMem v).tx = s.tx := rfl
@[simp] theorem State.setMem_rx (s : State) (v : Memory) : (s.setMem v).rx = s.rx := rfl
@[simp] theorem State.setMem_pool (s : State) (v : Memory) : (s.setMem v).pool = s.pool := rfl
@[simp] theorem State.setMem_flags (s : State) (v : Memory) : (s.setMem v).flags = s.flags := rfl
@[simp] theorem State.setMem_stats (s : State) (v : Memory) : (s.setMem v).stats = s.stats := rfl
@[simp] theorem State.setMem_wdt (s : State) (v : Memory) : (s.setMem v).wdt = s.wdt := rfl
@[simp] theorem State.setMem_link (s : State) (v : Memory) : (s.setMem v).link = s.link := rfl
@[simp] theorem State.setMem_medium (s : State) (v : Memory) : (s.setMem v).medium = s.medium := rfl
@[simp] theorem State.setMem_intrMask (s : State) (v : Memory) : (s.setMem v).intrMask = s.intrMask := rfl
@[simp] theorem State.setMem_mac (s : State) (v : Memory) : (s.setMem v).mac = s.mac := rfl
@[simp] theorem State.setMem_mem (s : State) (v : Memory) : (s.setMem v).mem = v := rfl
@[simp] theorem State.setMem_late (s : State) (v : Memory) : (s.setMem v).late = s.late := rfl
@[simp] theorem State.setMem_posted (s : State) (v : Memory) : (s.setMem v).posted = s.posted := rfl
@[simp] theorem State.setMem_puller (s : State) (v : Memory) : (s.setMem v).puller = s.puller := rfl
@[simp] theorem State.setMem_foreign (s : State) (v : Memory) : (s.setMem v).foreign = s.foreign := rfl
@[simp] theorem State.setMem_env (s : State) (v : Memory) : (s.setMem v).env = s.env := rfl
@[simp] theorem State.setMem_frameArg (s : State) (v : Memory) : (s.setMem v).frameArg = s.frameArg := rfl
@[simp] theorem State.setMem_linkArg (s : State) (v : Memory) : (s.setMem v).linkArg = s.linkArg := rfl
@[simp] theorem State.setMem_pending (s : State) (v : Memory) : (s.setMem v).pending = s.pending := rfl
@[simp] theorem State.setMem_result (s : State) (v : Memory) : (s.setMem v).result = s.result := rfl
@[simp] theorem State.setMem_trace (s : State) (v : Memory) : (s.setMem v).trace = s.trace := rfl
@[simp] theorem State.setLate_cfg (s : State) (v : List LateStore) : (s.setLate v).cfg = s.cfg := rfl
@[simp] theorem State.setLate_tx (s : State) (v : List LateStore) : (s.setLate v).tx = s.tx := rfl
@[simp] theorem State.setLate_rx (s : State) (v : List LateStore) : (s.setLate v).rx = s.rx := rfl
@[simp] theorem State.setLate_pool (s : State) (v : List LateStore) : (s.setLate v).pool = s.pool := rfl
@[simp] theorem State.setLate_flags (s : State) (v : List LateStore) : (s.setLate v).flags = s.flags := rfl
@[simp] theorem State.setLate_stats (s : State) (v : List LateStore) : (s.setLate v).stats = s.stats := rfl
@[simp] theorem State.setLate_wdt (s : State) (v : List LateStore) : (s.setLate v).wdt = s.wdt := rfl
@[simp] theorem State.setLate_link (s : State) (v : List LateStore) : (s.setLate v).link = s.link := rfl
@[simp] theorem State.setLate_medium (s : State) (v : List LateStore) : (s.setLate v).medium = s.medium := rfl
@[simp] theorem State.setLate_intrMask (s : State) (v : List LateStore) : (s.setLate v).intrMask = s.intrMask := rfl
@[simp] theorem State.setLate_mac (s : State) (v : List LateStore) : (s.setLate v).mac = s.mac := rfl
@[simp] theorem State.setLate_mem (s : State) (v : List LateStore) : (s.setLate v).mem = s.mem := rfl
@[simp] theorem State.setLate_env (s : State) (v : List LateStore) : (s.setLate v).env = s.env := rfl
@[simp] theorem State.setLate_frameArg (s : State) (v : List LateStore) : (s.setLate v).frameArg = s.frameArg := rfl
@[simp] theorem State.setLate_linkArg (s : State) (v : List LateStore) : (s.setLate v).linkArg = s.linkArg := rfl
@[simp] theorem State.setLate_pending (s : State) (v : List LateStore) : (s.setLate v).pending = s.pending := rfl
@[simp] theorem State.setLate_result (s : State) (v : List LateStore) : (s.setLate v).result = s.result := rfl
@[simp] theorem State.setLate_trace (s : State) (v : List LateStore) : (s.setLate v).trace = s.trace := rfl
@[simp] theorem State.setLate_late (s : State) (v : List LateStore) : (s.setLate v).late = v := rfl
@[simp] theorem State.setLate_posted (s : State) (v : List LateStore) : (s.setLate v).posted = s.posted := rfl
@[simp] theorem State.setLate_puller (s : State) (v : List LateStore) : (s.setLate v).puller = s.puller := rfl
@[simp] theorem State.setLate_foreign (s : State) (v : List LateStore) : (s.setLate v).foreign = s.foreign := rfl
@[simp] theorem State.setPosted_cfg (s : State) (v : List Posted) : (s.setPosted v).cfg = s.cfg := rfl
@[simp] theorem State.setPosted_tx (s : State) (v : List Posted) : (s.setPosted v).tx = s.tx := rfl
@[simp] theorem State.setPosted_rx (s : State) (v : List Posted) : (s.setPosted v).rx = s.rx := rfl
@[simp] theorem State.setPosted_pool (s : State) (v : List Posted) : (s.setPosted v).pool = s.pool := rfl
@[simp] theorem State.setPosted_flags (s : State) (v : List Posted) : (s.setPosted v).flags = s.flags := rfl
@[simp] theorem State.setPosted_stats (s : State) (v : List Posted) : (s.setPosted v).stats = s.stats := rfl
@[simp] theorem State.setPosted_wdt (s : State) (v : List Posted) : (s.setPosted v).wdt = s.wdt := rfl
@[simp] theorem State.setPosted_link (s : State) (v : List Posted) : (s.setPosted v).link = s.link := rfl
@[simp] theorem State.setPosted_medium (s : State) (v : List Posted) : (s.setPosted v).medium = s.medium := rfl
@[simp] theorem State.setPosted_intrMask (s : State) (v : List Posted) : (s.setPosted v).intrMask = s.intrMask := rfl
@[simp] theorem State.setPosted_mac (s : State) (v : List Posted) : (s.setPosted v).mac = s.mac := rfl
@[simp] theorem State.setPosted_mem (s : State) (v : List Posted) : (s.setPosted v).mem = s.mem := rfl
@[simp] theorem State.setPosted_env (s : State) (v : List Posted) : (s.setPosted v).env = s.env := rfl
@[simp] theorem State.setPosted_frameArg (s : State) (v : List Posted) : (s.setPosted v).frameArg = s.frameArg := rfl
@[simp] theorem State.setPosted_linkArg (s : State) (v : List Posted) : (s.setPosted v).linkArg = s.linkArg := rfl
@[simp] theorem State.setPosted_pending (s : State) (v : List Posted) : (s.setPosted v).pending = s.pending := rfl
@[simp] theorem State.setPosted_result (s : State) (v : List Posted) : (s.setPosted v).result = s.result := rfl
@[simp] theorem State.setPosted_trace (s : State) (v : List Posted) : (s.setPosted v).trace = s.trace := rfl
@[simp] theorem State.setPosted_late (s : State) (v : List Posted) : (s.setPosted v).late = s.late := rfl
@[simp] theorem State.setPosted_puller (s : State) (v : List Posted) : (s.setPosted v).puller = s.puller := rfl
@[simp] theorem State.setPosted_foreign (s : State) (v : List Posted) : (s.setPosted v).foreign = s.foreign := rfl
@[simp] theorem State.setPosted_posted (s : State) (v : List Posted) : (s.setPosted v).posted = v := rfl
@[simp] theorem State.setPuller_cfg (s : State) (v : PullPhase) : (s.setPuller v).cfg = s.cfg := rfl
@[simp] theorem State.setPuller_tx (s : State) (v : PullPhase) : (s.setPuller v).tx = s.tx := rfl
@[simp] theorem State.setPuller_rx (s : State) (v : PullPhase) : (s.setPuller v).rx = s.rx := rfl
@[simp] theorem State.setPuller_pool (s : State) (v : PullPhase) : (s.setPuller v).pool = s.pool := rfl
@[simp] theorem State.setPuller_flags (s : State) (v : PullPhase) : (s.setPuller v).flags = s.flags := rfl
@[simp] theorem State.setPuller_stats (s : State) (v : PullPhase) : (s.setPuller v).stats = s.stats := rfl
@[simp] theorem State.setPuller_wdt (s : State) (v : PullPhase) : (s.setPuller v).wdt = s.wdt := rfl
@[simp] theorem State.setPuller_link (s : State) (v : PullPhase) : (s.setPuller v).link = s.link := rfl
@[simp] theorem State.setPuller_medium (s : State) (v : PullPhase) : (s.setPuller v).medium = s.medium := rfl
@[simp] theorem State.setPuller_intrMask (s : State) (v : PullPhase) : (s.setPuller v).intrMask = s.intrMask := rfl
@[simp] theorem State.setPuller_mac (s : State) (v : PullPhase) : (s.setPuller v).mac = s.mac := rfl
@[simp] theorem State.setPuller_mem (s : State) (v : PullPhase) : (s.setPuller v).mem = s.mem := rfl
@[simp] theorem State.setPuller_late (s : State) (v : PullPhase) : (s.setPuller v).late = s.late := rfl
@[simp] theorem State.setPuller_posted (s : State) (v : PullPhase) : (s.setPuller v).posted = s.posted := rfl
@[simp] theorem State.setPuller_env (s : State) (v : PullPhase) : (s.setPuller v).env = s.env := rfl
@[simp] theorem State.setPuller_frameArg (s : State) (v : PullPhase) : (s.setPuller v).frameArg = s.frameArg := rfl
@[simp] theorem State.setPuller_linkArg (s : State) (v : PullPhase) : (s.setPuller v).linkArg = s.linkArg := rfl
@[simp] theorem State.setPuller_pending (s : State) (v : PullPhase) : (s.setPuller v).pending = s.pending := rfl
@[simp] theorem State.setPuller_result (s : State) (v : PullPhase) : (s.setPuller v).result = s.result := rfl
@[simp] theorem State.setPuller_trace (s : State) (v : PullPhase) : (s.setPuller v).trace = s.trace := rfl
@[simp] theorem State.setPuller_puller (s : State) (v : PullPhase) : (s.setPuller v).puller = v := rfl
@[simp] theorem State.setPuller_foreign (s : State) (v : PullPhase) : (s.setPuller v).foreign = s.foreign := rfl
@[simp] theorem State.setForeign_cfg (s : State) (v : Nat) : (s.setForeign v).cfg = s.cfg := rfl
@[simp] theorem State.setForeign_tx (s : State) (v : Nat) : (s.setForeign v).tx = s.tx := rfl
@[simp] theorem State.setForeign_rx (s : State) (v : Nat) : (s.setForeign v).rx = s.rx := rfl
@[simp] theorem State.setForeign_pool (s : State) (v : Nat) : (s.setForeign v).pool = s.pool := rfl
@[simp] theorem State.setForeign_flags (s : State) (v : Nat) : (s.setForeign v).flags = s.flags := rfl
@[simp] theorem State.setForeign_stats (s : State) (v : Nat) : (s.setForeign v).stats = s.stats := rfl
@[simp] theorem State.setForeign_wdt (s : State) (v : Nat) : (s.setForeign v).wdt = s.wdt := rfl
@[simp] theorem State.setForeign_link (s : State) (v : Nat) : (s.setForeign v).link = s.link := rfl
@[simp] theorem State.setForeign_medium (s : State) (v : Nat) : (s.setForeign v).medium = s.medium := rfl
@[simp] theorem State.setForeign_intrMask (s : State) (v : Nat) : (s.setForeign v).intrMask = s.intrMask := rfl
@[simp] theorem State.setForeign_mac (s : State) (v : Nat) : (s.setForeign v).mac = s.mac := rfl
@[simp] theorem State.setForeign_mem (s : State) (v : Nat) : (s.setForeign v).mem = s.mem := rfl
@[simp] theorem State.setForeign_late (s : State) (v : Nat) : (s.setForeign v).late = s.late := rfl
@[simp] theorem State.setForeign_posted (s : State) (v : Nat) : (s.setForeign v).posted = s.posted := rfl
@[simp] theorem State.setForeign_env (s : State) (v : Nat) : (s.setForeign v).env = s.env := rfl
@[simp] theorem State.setForeign_frameArg (s : State) (v : Nat) : (s.setForeign v).frameArg = s.frameArg := rfl
@[simp] theorem State.setForeign_linkArg (s : State) (v : Nat) : (s.setForeign v).linkArg = s.linkArg := rfl
@[simp] theorem State.setForeign_pending (s : State) (v : Nat) : (s.setForeign v).pending = s.pending := rfl
@[simp] theorem State.setForeign_result (s : State) (v : Nat) : (s.setForeign v).result = s.result := rfl
@[simp] theorem State.setForeign_trace (s : State) (v : Nat) : (s.setForeign v).trace = s.trace := rfl
@[simp] theorem State.setForeign_puller (s : State) (v : Nat) : (s.setForeign v).puller = s.puller := rfl
@[simp] theorem State.setForeign_foreign (s : State) (v : Nat) : (s.setForeign v).foreign = v := rfl
@[simp] theorem State.setEnv_cfg (s : State) (v : Env) : (s.setEnv v).cfg = s.cfg := rfl
@[simp] theorem State.setEnv_tx (s : State) (v : Env) : (s.setEnv v).tx = s.tx := rfl
@[simp] theorem State.setEnv_rx (s : State) (v : Env) : (s.setEnv v).rx = s.rx := rfl
@[simp] theorem State.setEnv_pool (s : State) (v : Env) : (s.setEnv v).pool = s.pool := rfl
@[simp] theorem State.setEnv_flags (s : State) (v : Env) : (s.setEnv v).flags = s.flags := rfl
@[simp] theorem State.setEnv_stats (s : State) (v : Env) : (s.setEnv v).stats = s.stats := rfl
@[simp] theorem State.setEnv_wdt (s : State) (v : Env) : (s.setEnv v).wdt = s.wdt := rfl
@[simp] theorem State.setEnv_link (s : State) (v : Env) : (s.setEnv v).link = s.link := rfl
@[simp] theorem State.setEnv_medium (s : State) (v : Env) : (s.setEnv v).medium = s.medium := rfl
@[simp] theorem State.setEnv_intrMask (s : State) (v : Env) : (s.setEnv v).intrMask = s.intrMask := rfl
@[simp] theorem State.setEnv_mac (s : State) (v : Env) : (s.setEnv v).mac = s.mac := rfl
@[simp] theorem State.setEnv_mem (s : State) (v : Env) : (s.setEnv v).mem = s.mem := rfl
@[simp] theorem State.setEnv_late (s : State) (v : Env) : (s.setEnv v).late = s.late := rfl
@[simp] theorem State.setEnv_posted (s : State) (v : Env) : (s.setEnv v).posted = s.posted := rfl
@[simp] theorem State.setEnv_puller (s : State) (v : Env) : (s.setEnv v).puller = s.puller := rfl
@[simp] theorem State.setEnv_foreign (s : State) (v : Env) : (s.setEnv v).foreign = s.foreign := rfl
@[simp] theorem State.setEnv_env (s : State) (v : Env) : (s.setEnv v).env = v := rfl
@[simp] theorem State.setEnv_frameArg (s : State) (v : Env) : (s.setEnv v).frameArg = s.frameArg := rfl
@[simp] theorem State.setEnv_linkArg (s : State) (v : Env) : (s.setEnv v).linkArg = s.linkArg := rfl
@[simp] theorem State.setEnv_pending (s : State) (v : Env) : (s.setEnv v).pending = s.pending := rfl
@[simp] theorem State.setEnv_result (s : State) (v : Env) : (s.setEnv v).result = s.result := rfl
@[simp] theorem State.setEnv_trace (s : State) (v : Env) : (s.setEnv v).trace = s.trace := rfl
@[simp] theorem State.setPending_cfg (s : State) (v : List Event) : (s.setPending v).cfg = s.cfg := rfl
@[simp] theorem State.setPending_tx (s : State) (v : List Event) : (s.setPending v).tx = s.tx := rfl
@[simp] theorem State.setPending_rx (s : State) (v : List Event) : (s.setPending v).rx = s.rx := rfl
@[simp] theorem State.setPending_pool (s : State) (v : List Event) : (s.setPending v).pool = s.pool := rfl
@[simp] theorem State.setPending_flags (s : State) (v : List Event) : (s.setPending v).flags = s.flags := rfl
@[simp] theorem State.setPending_stats (s : State) (v : List Event) : (s.setPending v).stats = s.stats := rfl
@[simp] theorem State.setPending_wdt (s : State) (v : List Event) : (s.setPending v).wdt = s.wdt := rfl
@[simp] theorem State.setPending_link (s : State) (v : List Event) : (s.setPending v).link = s.link := rfl
@[simp] theorem State.setPending_medium (s : State) (v : List Event) : (s.setPending v).medium = s.medium := rfl
@[simp] theorem State.setPending_intrMask (s : State) (v : List Event) : (s.setPending v).intrMask = s.intrMask := rfl
@[simp] theorem State.setPending_mac (s : State) (v : List Event) : (s.setPending v).mac = s.mac := rfl
@[simp] theorem State.setPending_mem (s : State) (v : List Event) : (s.setPending v).mem = s.mem := rfl
@[simp] theorem State.setPending_late (s : State) (v : List Event) : (s.setPending v).late = s.late := rfl
@[simp] theorem State.setPending_posted (s : State) (v : List Event) : (s.setPending v).posted = s.posted := rfl
@[simp] theorem State.setPending_puller (s : State) (v : List Event) : (s.setPending v).puller = s.puller := rfl
@[simp] theorem State.setPending_foreign (s : State) (v : List Event) : (s.setPending v).foreign = s.foreign := rfl
@[simp] theorem State.setPending_env (s : State) (v : List Event) : (s.setPending v).env = s.env := rfl
@[simp] theorem State.setPending_frameArg (s : State) (v : List Event) : (s.setPending v).frameArg = s.frameArg := rfl
@[simp] theorem State.setPending_linkArg (s : State) (v : List Event) : (s.setPending v).linkArg = s.linkArg := rfl
@[simp] theorem State.setPending_pending (s : State) (v : List Event) : (s.setPending v).pending = v := rfl
@[simp] theorem State.setPending_result (s : State) (v : List Event) : (s.setPending v).result = s.result := rfl
@[simp] theorem State.setPending_trace (s : State) (v : List Event) : (s.setPending v).trace = s.trace := rfl
@[simp] theorem State.setResult_cfg (s : State) (v : Result) : (s.setResult v).cfg = s.cfg := rfl
@[simp] theorem State.setResult_tx (s : State) (v : Result) : (s.setResult v).tx = s.tx := rfl
@[simp] theorem State.setResult_rx (s : State) (v : Result) : (s.setResult v).rx = s.rx := rfl
@[simp] theorem State.setResult_pool (s : State) (v : Result) : (s.setResult v).pool = s.pool := rfl
@[simp] theorem State.setResult_flags (s : State) (v : Result) : (s.setResult v).flags = s.flags := rfl
@[simp] theorem State.setResult_stats (s : State) (v : Result) : (s.setResult v).stats = s.stats := rfl
@[simp] theorem State.setResult_wdt (s : State) (v : Result) : (s.setResult v).wdt = s.wdt := rfl
@[simp] theorem State.setResult_link (s : State) (v : Result) : (s.setResult v).link = s.link := rfl
@[simp] theorem State.setResult_medium (s : State) (v : Result) : (s.setResult v).medium = s.medium := rfl
@[simp] theorem State.setResult_intrMask (s : State) (v : Result) : (s.setResult v).intrMask = s.intrMask := rfl
@[simp] theorem State.setResult_mac (s : State) (v : Result) : (s.setResult v).mac = s.mac := rfl
@[simp] theorem State.setResult_mem (s : State) (v : Result) : (s.setResult v).mem = s.mem := rfl
@[simp] theorem State.setResult_late (s : State) (v : Result) : (s.setResult v).late = s.late := rfl
@[simp] theorem State.setResult_posted (s : State) (v : Result) : (s.setResult v).posted = s.posted := rfl
@[simp] theorem State.setResult_puller (s : State) (v : Result) : (s.setResult v).puller = s.puller := rfl
@[simp] theorem State.setResult_foreign (s : State) (v : Result) : (s.setResult v).foreign = s.foreign := rfl
@[simp] theorem State.setResult_env (s : State) (v : Result) : (s.setResult v).env = s.env := rfl
@[simp] theorem State.setResult_frameArg (s : State) (v : Result) : (s.setResult v).frameArg = s.frameArg := rfl
@[simp] theorem State.setResult_linkArg (s : State) (v : Result) : (s.setResult v).linkArg = s.linkArg := rfl
@[simp] theorem State.setResult_pending (s : State) (v : Result) : (s.setResult v).pending = s.pending := rfl
@[simp] theorem State.setResult_result (s : State) (v : Result) : (s.setResult v).result = v := rfl
@[simp] theorem State.setResult_trace (s : State) (v : Result) : (s.setResult v).trace = s.trace := rfl
@[simp] theorem State.emit_cfg (s : State) (a : Act) : (s.emit a).cfg = s.cfg := rfl
@[simp] theorem State.emit_tx (s : State) (a : Act) : (s.emit a).tx = s.tx := rfl
@[simp] theorem State.emit_rx (s : State) (a : Act) : (s.emit a).rx = s.rx := rfl
@[simp] theorem State.emit_pool (s : State) (a : Act) : (s.emit a).pool = s.pool := rfl
@[simp] theorem State.emit_flags (s : State) (a : Act) : (s.emit a).flags = s.flags := rfl
@[simp] theorem State.emit_stats (s : State) (a : Act) : (s.emit a).stats = s.stats := rfl
@[simp] theorem State.emit_wdt (s : State) (a : Act) : (s.emit a).wdt = s.wdt := rfl
@[simp] theorem State.emit_link (s : State) (a : Act) : (s.emit a).link = s.link := rfl
@[simp] theorem State.emit_medium (s : State) (a : Act) : (s.emit a).medium = s.medium := rfl
@[simp] theorem State.emit_intrMask (s : State) (a : Act) : (s.emit a).intrMask = s.intrMask := rfl
@[simp] theorem State.emit_mac (s : State) (a : Act) : (s.emit a).mac = s.mac := rfl
@[simp] theorem State.emit_mem (s : State) (a : Act) : (s.emit a).mem = s.mem := rfl
@[simp] theorem State.emit_late (s : State) (a : Act) : (s.emit a).late = s.late := rfl
@[simp] theorem State.emit_posted (s : State) (a : Act) : (s.emit a).posted = s.posted := rfl
@[simp] theorem State.emit_puller (s : State) (a : Act) : (s.emit a).puller = s.puller := rfl
@[simp] theorem State.emit_foreign (s : State) (a : Act) : (s.emit a).foreign = s.foreign := rfl
@[simp] theorem State.emit_env (s : State) (a : Act) : (s.emit a).env = s.env := rfl
@[simp] theorem State.emit_frameArg (s : State) (a : Act) : (s.emit a).frameArg = s.frameArg := rfl
@[simp] theorem State.emit_linkArg (s : State) (a : Act) : (s.emit a).linkArg = s.linkArg := rfl
@[simp] theorem State.emit_pending (s : State) (a : Act) : (s.emit a).pending = s.pending := rfl
@[simp] theorem State.emit_result (s : State) (a : Act) : (s.emit a).result = s.result := rfl
@[simp] theorem State.emit_trace (s : State) (a : Act) : (s.emit a).trace = a :: s.trace := rfl
@[simp] theorem State.setArgs_cfg (s : State) (f : Frame) (p : Link) : (s.setArgs f p).cfg = s.cfg := rfl
@[simp] theorem State.setArgs_tx (s : State) (f : Frame) (p : Link) : (s.setArgs f p).tx = s.tx := rfl
@[simp] theorem State.setArgs_rx (s : State) (f : Frame) (p : Link) : (s.setArgs f p).rx = s.rx := rfl
@[simp] theorem State.setArgs_pool (s : State) (f : Frame) (p : Link) : (s.setArgs f p).pool = s.pool := rfl
@[simp] theorem State.setArgs_flags (s : State) (f : Frame) (p : Link) : (s.setArgs f p).flags = s.flags := rfl
@[simp] theorem State.setArgs_stats (s : State) (f : Frame) (p : Link) : (s.setArgs f p).stats = s.stats := rfl
@[simp] theorem State.setArgs_wdt (s : State) (f : Frame) (p : Link) : (s.setArgs f p).wdt = s.wdt := rfl
@[simp] theorem State.setArgs_link (s : State) (f : Frame) (p : Link) : (s.setArgs f p).link = s.link := rfl
@[simp] theorem State.setArgs_medium (s : State) (f : Frame) (p : Link) : (s.setArgs f p).medium = s.medium := rfl
@[simp] theorem State.setArgs_intrMask (s : State) (f : Frame) (p : Link) : (s.setArgs f p).intrMask = s.intrMask := rfl
@[simp] theorem State.setArgs_mac (s : State) (f : Frame) (p : Link) : (s.setArgs f p).mac = s.mac := rfl
@[simp] theorem State.setArgs_mem (s : State) (f : Frame) (p : Link) : (s.setArgs f p).mem = s.mem := rfl
@[simp] theorem State.setArgs_late (s : State) (f : Frame) (p : Link) : (s.setArgs f p).late = s.late := rfl
@[simp] theorem State.setArgs_posted (s : State) (f : Frame) (p : Link) : (s.setArgs f p).posted = s.posted := rfl
@[simp] theorem State.setArgs_puller (s : State) (f : Frame) (p : Link) : (s.setArgs f p).puller = s.puller := rfl
@[simp] theorem State.setArgs_foreign (s : State) (f : Frame) (p : Link) : (s.setArgs f p).foreign = s.foreign := rfl
@[simp] theorem State.setArgs_env (s : State) (f : Frame) (p : Link) : (s.setArgs f p).env = s.env := rfl
@[simp] theorem State.setArgs_frameArg (s : State) (f : Frame) (p : Link) : (s.setArgs f p).frameArg = f := rfl
@[simp] theorem State.setArgs_linkArg (s : State) (f : Frame) (p : Link) : (s.setArgs f p).linkArg = p := rfl
@[simp] theorem State.setArgs_pending (s : State) (f : Frame) (p : Link) : (s.setArgs f p).pending = s.pending := rfl
@[simp] theorem State.setArgs_result (s : State) (f : Frame) (p : Link) : (s.setArgs f p).result = s.result := rfl
@[simp] theorem State.setArgs_trace (s : State) (f : Frame) (p : Link) : (s.setArgs f p).trace = s.trace := rfl

end Sys2Proof.Machine
end

