-- ==== Sys2Proof/Laws/Frames.lean ====
section
/-! SUPPORT. One frame lemma per shared operation: every field of the state it leaves as it was. Tagged @[simp] where it
needs no hypothesis, so that a proof reads an untouched field through an operation without unfolding it. -/

namespace Sys2Proof.Machine

@[simp] theorem raise_frame (e : CoreEvent) (s : State) :
    (raise e s).cfg = s.cfg ∧ (raise e s).tx = s.tx ∧ (raise e s).rx = s.rx ∧ (raise e s).pool = s.pool ∧
    (raise e s).flags = s.flags ∧ (raise e s).wdt = s.wdt ∧ (raise e s).link = s.link ∧
    (raise e s).medium = s.medium ∧ (raise e s).intrMask = s.intrMask ∧ (raise e s).mac = s.mac ∧
    (raise e s).mem = s.mem ∧ (raise e s).late = s.late ∧ (raise e s).env = s.env ∧
    (raise e s).frameArg = s.frameArg ∧ (raise e s).linkArg = s.linkArg ∧ (raise e s).pending = s.pending ∧
    (raise e s).result = s.result ∧ (raise e s).puller = s.puller ∧ (raise e s).posted = s.posted ∧
    (raise e s).foreign = s.foreign := by simp [raise]

@[simp] theorem log_frame (t : LogText) (s : State) :
    (log t s).cfg = s.cfg ∧ (log t s).tx = s.tx ∧ (log t s).rx = s.rx ∧ (log t s).pool = s.pool ∧
    (log t s).flags = s.flags ∧ (log t s).stats = s.stats ∧ (log t s).wdt = s.wdt ∧ (log t s).link = s.link ∧
    (log t s).medium = s.medium ∧ (log t s).intrMask = s.intrMask ∧ (log t s).mac = s.mac ∧ (log t s).mem = s.mem ∧
    (log t s).late = s.late ∧ (log t s).env = s.env ∧ (log t s).frameArg = s.frameArg ∧
    (log t s).linkArg = s.linkArg ∧ (log t s).pending = s.pending ∧ (log t s).result = s.result ∧
    (log t s).puller = s.puller ∧ (log t s).posted = s.posted ∧ (log t s).foreign = s.foreign := by simp [log]

@[simp] theorem nextAlloc_frame (s : State) :
    (nextAlloc s).2.cfg = s.cfg ∧ (nextAlloc s).2.tx = s.tx ∧ (nextAlloc s).2.rx = s.rx ∧
    (nextAlloc s).2.pool = s.pool ∧ (nextAlloc s).2.flags = s.flags ∧ (nextAlloc s).2.stats = s.stats ∧
    (nextAlloc s).2.wdt = s.wdt ∧ (nextAlloc s).2.link = s.link ∧ (nextAlloc s).2.medium = s.medium ∧
    (nextAlloc s).2.intrMask = s.intrMask ∧ (nextAlloc s).2.mac = s.mac ∧ (nextAlloc s).2.mem = s.mem ∧
    (nextAlloc s).2.late = s.late ∧ (nextAlloc s).2.frameArg = s.frameArg ∧ (nextAlloc s).2.linkArg = s.linkArg ∧
    (nextAlloc s).2.pending = s.pending ∧ (nextAlloc s).2.result = s.result ∧ (nextAlloc s).2.trace = s.trace ∧
    (nextAlloc s).2.puller = s.puller ∧ (nextAlloc s).2.posted = s.posted ∧ (nextAlloc s).2.foreign = s.foreign := by
  unfold nextAlloc
  split <;> simp

@[simp] theorem nextDma_frame (s : State) :
    (nextDma s).2.cfg = s.cfg ∧ (nextDma s).2.tx = s.tx ∧ (nextDma s).2.rx = s.rx ∧ (nextDma s).2.pool = s.pool ∧
    (nextDma s).2.flags = s.flags ∧ (nextDma s).2.stats = s.stats ∧ (nextDma s).2.wdt = s.wdt ∧
    (nextDma s).2.link = s.link ∧ (nextDma s).2.medium = s.medium ∧ (nextDma s).2.intrMask = s.intrMask ∧
    (nextDma s).2.mac = s.mac ∧ (nextDma s).2.mem = s.mem ∧ (nextDma s).2.late = s.late ∧
    (nextDma s).2.frameArg = s.frameArg ∧ (nextDma s).2.linkArg = s.linkArg ∧ (nextDma s).2.pending = s.pending ∧
    (nextDma s).2.result = s.result ∧ (nextDma s).2.trace = s.trace ∧ (nextDma s).2.puller = s.puller ∧
    (nextDma s).2.posted = s.posted ∧ (nextDma s).2.foreign = s.foreign := by
  unfold nextDma
  split <;> simp

@[simp] theorem nextHw_frame (s : State) :
    (nextHw s).2.cfg = s.cfg ∧ (nextHw s).2.tx = s.tx ∧ (nextHw s).2.rx = s.rx ∧ (nextHw s).2.pool = s.pool ∧
    (nextHw s).2.flags = s.flags ∧ (nextHw s).2.stats = s.stats ∧ (nextHw s).2.wdt = s.wdt ∧
    (nextHw s).2.link = s.link ∧ (nextHw s).2.medium = s.medium ∧ (nextHw s).2.intrMask = s.intrMask ∧
    (nextHw s).2.mac = s.mac ∧ (nextHw s).2.mem = s.mem ∧ (nextHw s).2.late = s.late ∧
    (nextHw s).2.frameArg = s.frameArg ∧ (nextHw s).2.linkArg = s.linkArg ∧ (nextHw s).2.pending = s.pending ∧
    (nextHw s).2.result = s.result ∧ (nextHw s).2.trace = s.trace ∧ (nextHw s).2.puller = s.puller ∧
    (nextHw s).2.posted = s.posted ∧ (nextHw s).2.foreign = s.foreign := by
  unfold nextHw
  split <;> simp

@[simp] theorem hwReadLink_frame (s : State) :
    (hwReadLink s).2.cfg = s.cfg ∧ (hwReadLink s).2.tx = s.tx ∧ (hwReadLink s).2.rx = s.rx ∧
    (hwReadLink s).2.pool = s.pool ∧ (hwReadLink s).2.flags = s.flags ∧ (hwReadLink s).2.stats = s.stats ∧
    (hwReadLink s).2.wdt = s.wdt ∧ (hwReadLink s).2.link = s.link ∧ (hwReadLink s).2.medium = s.medium ∧
    (hwReadLink s).2.intrMask = s.intrMask ∧ (hwReadLink s).2.mac = s.mac ∧ (hwReadLink s).2.mem = s.mem ∧
    (hwReadLink s).2.late = s.late ∧ (hwReadLink s).2.frameArg = s.frameArg ∧ (hwReadLink s).2.linkArg = s.linkArg ∧
    (hwReadLink s).2.pending = s.pending ∧ (hwReadLink s).2.result = s.result ∧ (hwReadLink s).2.trace = s.trace ∧
    (hwReadLink s).2.puller = s.puller ∧ (hwReadLink s).2.posted = s.posted ∧ (hwReadLink s).2.foreign = s.foreign := by
  unfold hwReadLink
  split <;> simp

@[simp] theorem takeRegion_frame (r : Region) (s : State) :
    (takeRegion r s).cfg = s.cfg ∧ (takeRegion r s).tx = s.tx ∧ (takeRegion r s).rx = s.rx ∧
    (takeRegion r s).pool = s.pool ∧ (takeRegion r s).flags = s.flags ∧ (takeRegion r s).stats = s.stats ∧
    (takeRegion r s).wdt = s.wdt ∧ (takeRegion r s).link = s.link ∧ (takeRegion r s).medium = s.medium ∧
    (takeRegion r s).intrMask = s.intrMask ∧ (takeRegion r s).mac = s.mac ∧ (takeRegion r s).mem = s.mem ∧
    (takeRegion r s).late = s.late ∧ (takeRegion r s).frameArg = s.frameArg ∧ (takeRegion r s).linkArg = s.linkArg ∧
    (takeRegion r s).pending = s.pending ∧ (takeRegion r s).result = s.result ∧ (takeRegion r s).trace = s.trace ∧
    (takeRegion r s).puller = s.puller ∧ (takeRegion r s).posted = s.posted ∧ (takeRegion r s).foreign = s.foreign := by
  simp [takeRegion]

@[simp] theorem dropRegion_frame (r : Region) (s : State) :
    (dropRegion r s).cfg = s.cfg ∧ (dropRegion r s).tx = s.tx ∧ (dropRegion r s).rx = s.rx ∧
    (dropRegion r s).pool = s.pool ∧ (dropRegion r s).flags = s.flags ∧ (dropRegion r s).stats = s.stats ∧
    (dropRegion r s).wdt = s.wdt ∧ (dropRegion r s).link = s.link ∧ (dropRegion r s).medium = s.medium ∧
    (dropRegion r s).intrMask = s.intrMask ∧ (dropRegion r s).mac = s.mac ∧ (dropRegion r s).mem = s.mem ∧
    (dropRegion r s).late = s.late ∧ (dropRegion r s).frameArg = s.frameArg ∧ (dropRegion r s).linkArg = s.linkArg ∧
    (dropRegion r s).pending = s.pending ∧ (dropRegion r s).result = s.result ∧ (dropRegion r s).trace = s.trace ∧
    (dropRegion r s).puller = s.puller ∧ (dropRegion r s).posted = s.posted ∧ (dropRegion r s).foreign = s.foreign := by
  simp [dropRegion]

@[simp] theorem takeBuf_frame (n : Nat) (a : BufAnswer) (s : State) :
    (takeBuf n a s).cfg = s.cfg ∧ (takeBuf n a s).tx = s.tx ∧ (takeBuf n a s).rx = s.rx ∧
    (takeBuf n a s).pool = s.pool ∧ (takeBuf n a s).flags = s.flags ∧ (takeBuf n a s).stats = s.stats ∧
    (takeBuf n a s).wdt = s.wdt ∧ (takeBuf n a s).link = s.link ∧ (takeBuf n a s).medium = s.medium ∧
    (takeBuf n a s).intrMask = s.intrMask ∧ (takeBuf n a s).mac = s.mac ∧ (takeBuf n a s).late = s.late ∧
    (takeBuf n a s).frameArg = s.frameArg ∧ (takeBuf n a s).linkArg = s.linkArg ∧
    (takeBuf n a s).pending = s.pending ∧ (takeBuf n a s).result = s.result ∧ (takeBuf n a s).trace = s.trace ∧
    (takeBuf n a s).puller = s.puller ∧ (takeBuf n a s).posted = s.posted ∧ (takeBuf n a s).foreign = s.foreign := by
  simp [takeBuf]

@[simp] theorem bufAlloc_frame (z : Bool) (n : Nat) (s : State) :
    (bufAlloc z n s).2.cfg = s.cfg ∧ (bufAlloc z n s).2.tx = s.tx ∧ (bufAlloc z n s).2.rx = s.rx ∧
    (bufAlloc z n s).2.pool = s.pool ∧ (bufAlloc z n s).2.flags = s.flags ∧ (bufAlloc z n s).2.stats = s.stats ∧
    (bufAlloc z n s).2.wdt = s.wdt ∧ (bufAlloc z n s).2.link = s.link ∧ (bufAlloc z n s).2.medium = s.medium ∧
    (bufAlloc z n s).2.intrMask = s.intrMask ∧ (bufAlloc z n s).2.mac = s.mac ∧ (bufAlloc z n s).2.late = s.late ∧
    (bufAlloc z n s).2.frameArg = s.frameArg ∧ (bufAlloc z n s).2.linkArg = s.linkArg ∧
    (bufAlloc z n s).2.pending = s.pending ∧ (bufAlloc z n s).2.result = s.result ∧
    (bufAlloc z n s).2.trace = s.trace ∧ (bufAlloc z n s).2.puller = s.puller ∧
    (bufAlloc z n s).2.posted = s.posted ∧ (bufAlloc z n s).2.foreign = s.foreign := by
  unfold bufAlloc
  rcases h : nextAlloc s with ⟨_ | x, s1⟩ <;> cases congrArg Prod.snd h
  · simp
  · dsimp only
    split <;> simp

@[simp] theorem rxBufAlloc_frame (s : State) :
    (rxBufAlloc s).2.cfg = s.cfg ∧ (rxBufAlloc s).2.tx = s.tx ∧ (rxBufAlloc s).2.rx = s.rx ∧
    (rxBufAlloc s).2.pool = s.pool ∧ (rxBufAlloc s).2.flags = s.flags ∧ (rxBufAlloc s).2.stats = s.stats ∧
    (rxBufAlloc s).2.wdt = s.wdt ∧ (rxBufAlloc s).2.link = s.link ∧ (rxBufAlloc s).2.medium = s.medium ∧
    (rxBufAlloc s).2.intrMask = s.intrMask ∧ (rxBufAlloc s).2.mac = s.mac ∧ (rxBufAlloc s).2.late = s.late ∧
    (rxBufAlloc s).2.frameArg = s.frameArg ∧ (rxBufAlloc s).2.linkArg = s.linkArg ∧
    (rxBufAlloc s).2.pending = s.pending ∧ (rxBufAlloc s).2.result = s.result ∧ (rxBufAlloc s).2.trace = s.trace ∧
    (rxBufAlloc s).2.puller = s.puller ∧ (rxBufAlloc s).2.posted = s.posted ∧ (rxBufAlloc s).2.foreign = s.foreign := by
  simp [rxBufAlloc]

@[simp] theorem dmaAlloc_frame (n : Nat) (s : State) :
    (dmaAlloc n s).2.cfg = s.cfg ∧ (dmaAlloc n s).2.tx = s.tx ∧ (dmaAlloc n s).2.rx = s.rx ∧
    (dmaAlloc n s).2.pool = s.pool ∧ (dmaAlloc n s).2.flags = s.flags ∧ (dmaAlloc n s).2.stats = s.stats ∧
    (dmaAlloc n s).2.wdt = s.wdt ∧ (dmaAlloc n s).2.link = s.link ∧ (dmaAlloc n s).2.medium = s.medium ∧
    (dmaAlloc n s).2.intrMask = s.intrMask ∧ (dmaAlloc n s).2.mac = s.mac ∧ (dmaAlloc n s).2.mem = s.mem ∧
    (dmaAlloc n s).2.late = s.late ∧ (dmaAlloc n s).2.frameArg = s.frameArg ∧ (dmaAlloc n s).2.linkArg = s.linkArg ∧
    (dmaAlloc n s).2.pending = s.pending ∧ (dmaAlloc n s).2.result = s.result ∧ (dmaAlloc n s).2.trace = s.trace ∧
    (dmaAlloc n s).2.puller = s.puller ∧ (dmaAlloc n s).2.posted = s.posted ∧ (dmaAlloc n s).2.foreign = s.foreign := by
  unfold dmaAlloc
  rcases h : nextDma s with ⟨_ | x, s1⟩ <;> cases congrArg Prod.snd h
  · simp
  · dsimp only
    split <;> simp

@[simp] theorem reach_frame (n : Nat) (s : State) :
    (reach n s).cfg = s.cfg ∧ (reach n s).tx = s.tx ∧ (reach n s).rx = s.rx ∧ (reach n s).pool = s.pool ∧
    (reach n s).flags = s.flags ∧ (reach n s).stats = s.stats ∧ (reach n s).wdt = s.wdt ∧
    (reach n s).link = s.link ∧ (reach n s).medium = s.medium ∧ (reach n s).intrMask = s.intrMask ∧
    (reach n s).mac = s.mac ∧ (reach n s).mem = s.mem ∧ (reach n s).env = s.env ∧
    (reach n s).frameArg = s.frameArg ∧ (reach n s).linkArg = s.linkArg ∧ (reach n s).pending = s.pending ∧
    (reach n s).result = s.result ∧ (reach n s).trace = s.trace ∧ (reach n s).puller = s.puller ∧
    (reach n s).foreign = s.foreign := by simp [reach]

@[simp] theorem reachAll_frame (s : State) :
    (reachAll s).cfg = s.cfg ∧ (reachAll s).tx = s.tx ∧ (reachAll s).rx = s.rx ∧ (reachAll s).pool = s.pool ∧
    (reachAll s).flags = s.flags ∧ (reachAll s).stats = s.stats ∧ (reachAll s).wdt = s.wdt ∧
    (reachAll s).link = s.link ∧ (reachAll s).medium = s.medium ∧ (reachAll s).intrMask = s.intrMask ∧
    (reachAll s).mac = s.mac ∧ (reachAll s).mem = s.mem ∧ (reachAll s).env = s.env ∧
    (reachAll s).frameArg = s.frameArg ∧ (reachAll s).linkArg = s.linkArg ∧ (reachAll s).pending = s.pending ∧
    (reachAll s).result = s.result ∧ (reachAll s).trace = s.trace ∧ (reachAll s).puller = s.puller ∧
    (reachAll s).foreign = s.foreign := by simp [reachAll]

@[simp] theorem postBell_frame (b : Doorbell) (s : State) :
    (postBell b s).cfg = s.cfg ∧ (postBell b s).tx = s.tx ∧ (postBell b s).rx = s.rx ∧
    (postBell b s).pool = s.pool ∧ (postBell b s).flags = s.flags ∧ (postBell b s).stats = s.stats ∧
    (postBell b s).wdt = s.wdt ∧ (postBell b s).link = s.link ∧ (postBell b s).medium = s.medium ∧
    (postBell b s).intrMask = s.intrMask ∧ (postBell b s).mac = s.mac ∧ (postBell b s).mem = s.mem ∧
    (postBell b s).env = s.env ∧ (postBell b s).frameArg = s.frameArg ∧ (postBell b s).linkArg = s.linkArg ∧
    (postBell b s).pending = s.pending ∧ (postBell b s).result = s.result ∧ (postBell b s).trace = s.trace ∧
    (postBell b s).puller = s.puller ∧ (postBell b s).foreign = s.foreign := by simp [postBell]

@[simp] theorem postReg_frame (r : Reg) (s : State) :
    (postReg r s).cfg = s.cfg ∧ (postReg r s).tx = s.tx ∧ (postReg r s).rx = s.rx ∧ (postReg r s).pool = s.pool ∧
    (postReg r s).flags = s.flags ∧ (postReg r s).stats = s.stats ∧ (postReg r s).wdt = s.wdt ∧
    (postReg r s).link = s.link ∧ (postReg r s).medium = s.medium ∧ (postReg r s).intrMask = s.intrMask ∧
    (postReg r s).mac = s.mac ∧ (postReg r s).mem = s.mem ∧ (postReg r s).env = s.env ∧
    (postReg r s).frameArg = s.frameArg ∧ (postReg r s).linkArg = s.linkArg ∧ (postReg r s).pending = s.pending ∧
    (postReg r s).result = s.result ∧ (postReg r s).trace = s.trace ∧ (postReg r s).puller = s.puller ∧
    (postReg r s).foreign = s.foreign := by
  cases r <;> simp [postReg]

@[simp] theorem regFlush_frame (s : State) :
    (regFlush s).cfg = s.cfg ∧ (regFlush s).tx = s.tx ∧ (regFlush s).rx = s.rx ∧ (regFlush s).pool = s.pool ∧
    (regFlush s).flags = s.flags ∧ (regFlush s).stats = s.stats ∧ (regFlush s).wdt = s.wdt ∧
    (regFlush s).link = s.link ∧ (regFlush s).medium = s.medium ∧ (regFlush s).intrMask = s.intrMask ∧
    (regFlush s).mac = s.mac ∧ (regFlush s).mem = s.mem ∧ (regFlush s).env = s.env ∧
    (regFlush s).frameArg = s.frameArg ∧ (regFlush s).linkArg = s.linkArg ∧ (regFlush s).pending = s.pending ∧
    (regFlush s).result = s.result ∧ (regFlush s).puller = s.puller ∧ (regFlush s).foreign = s.foreign := by simp [regFlush]

@[simp] theorem fence_frame (s : State) :
    (fence s).cfg = s.cfg ∧ (fence s).tx = s.tx ∧ (fence s).rx = s.rx ∧ (fence s).pool = s.pool ∧
    (fence s).flags = s.flags ∧ (fence s).stats = s.stats ∧ (fence s).wdt = s.wdt ∧ (fence s).link = s.link ∧
    (fence s).medium = s.medium ∧ (fence s).intrMask = s.intrMask ∧ (fence s).mac = s.mac ∧ (fence s).mem = s.mem ∧
    (fence s).env = s.env ∧ (fence s).frameArg = s.frameArg ∧ (fence s).linkArg = s.linkArg ∧
    (fence s).pending = s.pending ∧ (fence s).result = s.result ∧ (fence s).puller = s.puller ∧
    (fence s).posted = s.posted ∧ (fence s).foreign = s.foreign := by simp [fence]

@[simp] theorem beforeCall_frame (c : HwCall) (s : State) :
    (beforeCall c s).cfg = s.cfg ∧ (beforeCall c s).tx = s.tx ∧ (beforeCall c s).rx = s.rx ∧
    (beforeCall c s).pool = s.pool ∧ (beforeCall c s).flags = s.flags ∧ (beforeCall c s).stats = s.stats ∧
    (beforeCall c s).wdt = s.wdt ∧ (beforeCall c s).link = s.link ∧ (beforeCall c s).medium = s.medium ∧
    (beforeCall c s).intrMask = s.intrMask ∧ (beforeCall c s).mac = s.mac ∧ (beforeCall c s).mem = s.mem ∧
    (beforeCall c s).env = s.env ∧ (beforeCall c s).frameArg = s.frameArg ∧ (beforeCall c s).linkArg = s.linkArg ∧
    (beforeCall c s).pending = s.pending ∧ (beforeCall c s).result = s.result ∧ (beforeCall c s).trace = s.trace ∧
    (beforeCall c s).puller = s.puller ∧ (beforeCall c s).foreign = s.foreign := by
  cases c <;> simp [beforeCall]

@[simp] theorem hwCall_frame (c : HwCall) (s : State) :
    (hwCall c s).2.cfg = s.cfg ∧ (hwCall c s).2.tx = s.tx ∧ (hwCall c s).2.rx = s.rx ∧
    (hwCall c s).2.pool = s.pool ∧ (hwCall c s).2.flags = s.flags ∧ (hwCall c s).2.stats = s.stats ∧
    (hwCall c s).2.wdt = s.wdt ∧ (hwCall c s).2.link = s.link ∧ (hwCall c s).2.medium = s.medium ∧
    (hwCall c s).2.intrMask = s.intrMask ∧ (hwCall c s).2.mem = s.mem ∧ (hwCall c s).2.frameArg = s.frameArg ∧
    (hwCall c s).2.linkArg = s.linkArg ∧ (hwCall c s).2.pending = s.pending ∧ (hwCall c s).2.result = s.result ∧
    (hwCall c s).2.puller = s.puller ∧ (hwCall c s).2.foreign = s.foreign := by
  unfold hwCall
  rcases h : nextHw (beforeCall c s) with ⟨_ | x, s1⟩ <;> cases congrArg Prod.snd h <;> simp

theorem hwCall_posts {c : HwCall} (hc : c ≠ .macReset) (s : State) :
    (hwCall c s).2.late = s.late ∧ (hwCall c s).2.posted = s.posted := by
  have hb : beforeCall c s = s := by cases c <;> simp_all [beforeCall]
  unfold hwCall
  rcases h : nextHw (beforeCall c s) with ⟨_ | x, s1⟩ <;> cases congrArg Prod.snd h <;> simp [hb]

@[simp] theorem hwCalls_frame (l : List HwCall) (s : State) :
    (hwCalls l s).2.cfg = s.cfg ∧ (hwCalls l s).2.tx = s.tx ∧ (hwCalls l s).2.rx = s.rx ∧
    (hwCalls l s).2.pool = s.pool ∧ (hwCalls l s).2.flags = s.flags ∧ (hwCalls l s).2.stats = s.stats ∧
    (hwCalls l s).2.wdt = s.wdt ∧ (hwCalls l s).2.link = s.link ∧ (hwCalls l s).2.medium = s.medium ∧
    (hwCalls l s).2.intrMask = s.intrMask ∧ (hwCalls l s).2.mem = s.mem ∧ (hwCalls l s).2.frameArg = s.frameArg ∧
    (hwCalls l s).2.linkArg = s.linkArg ∧ (hwCalls l s).2.pending = s.pending ∧ (hwCalls l s).2.result = s.result ∧
    (hwCalls l s).2.puller = s.puller ∧ (hwCalls l s).2.foreign = s.foreign := by
  induction l generalizing s with
  | nil => simp [hwCalls]
  | cons c l ih =>
    unfold hwCalls
    rcases h : hwCall c s with ⟨_ | _, s1⟩ <;> cases congrArg Prod.snd h <;> simp [ih]

@[simp] theorem releaseFrame_frame (f : Frame) (b : Bool) (s : State) :
    (releaseFrame f b s).cfg = s.cfg ∧ (releaseFrame f b s).tx = s.tx ∧ (releaseFrame f b s).rx = s.rx ∧
    (releaseFrame f b s).pool = s.pool ∧ (releaseFrame f b s).flags = s.flags ∧
    (releaseFrame f b s).stats = s.stats ∧ (releaseFrame f b s).wdt = s.wdt ∧ (releaseFrame f b s).link = s.link ∧
    (releaseFrame f b s).medium = s.medium ∧ (releaseFrame f b s).intrMask = s.intrMask ∧
    (releaseFrame f b s).mac = s.mac ∧ (releaseFrame f b s).mem = s.mem ∧ (releaseFrame f b s).late = s.late ∧
    (releaseFrame f b s).env = s.env ∧ (releaseFrame f b s).frameArg = s.frameArg ∧
    (releaseFrame f b s).linkArg = s.linkArg ∧ (releaseFrame f b s).pending = s.pending ∧
    (releaseFrame f b s).result = s.result ∧ (releaseFrame f b s).puller = s.puller ∧
    (releaseFrame f b s).posted = s.posted ∧ (releaseFrame f b s).foreign = s.foreign := by simp [releaseFrame]

@[simp] theorem releaseAll_frame (l : List Frame) (s : State) :
    (releaseAll l s).cfg = s.cfg ∧ (releaseAll l s).tx = s.tx ∧ (releaseAll l s).rx = s.rx ∧
    (releaseAll l s).pool = s.pool ∧ (releaseAll l s).flags = s.flags ∧ (releaseAll l s).stats = s.stats ∧
    (releaseAll l s).wdt = s.wdt ∧ (releaseAll l s).link = s.link ∧ (releaseAll l s).medium = s.medium ∧
    (releaseAll l s).intrMask = s.intrMask ∧ (releaseAll l s).mac = s.mac ∧ (releaseAll l s).mem = s.mem ∧
    (releaseAll l s).late = s.late ∧ (releaseAll l s).env = s.env ∧ (releaseAll l s).frameArg = s.frameArg ∧
    (releaseAll l s).linkArg = s.linkArg ∧ (releaseAll l s).pending = s.pending ∧
    (releaseAll l s).result = s.result ∧ (releaseAll l s).puller = s.puller ∧ (releaseAll l s).posted = s.posted ∧
    (releaseAll l s).foreign = s.foreign := by
  induction l generalizing s with
  | nil => simp [releaseAll]
  | cons f l ih => simp [releaseAll, ih]

@[simp] theorem bufFree_frame (b : Buf) (s : State) :
    (bufFree b s).cfg = s.cfg ∧ (bufFree b s).tx = s.tx ∧ (bufFree b s).rx = s.rx ∧ (bufFree b s).pool = s.pool ∧
    (bufFree b s).flags = s.flags ∧ (bufFree b s).stats = s.stats ∧ (bufFree b s).wdt = s.wdt ∧
    (bufFree b s).link = s.link ∧ (bufFree b s).medium = s.medium ∧ (bufFree b s).intrMask = s.intrMask ∧
    (bufFree b s).mac = s.mac ∧ (bufFree b s).mem = s.mem ∧ (bufFree b s).late = s.late ∧
    (bufFree b s).frameArg = s.frameArg ∧ (bufFree b s).linkArg = s.linkArg ∧ (bufFree b s).pending = s.pending ∧
    (bufFree b s).result = s.result ∧ (bufFree b s).puller = s.puller ∧ (bufFree b s).posted = s.posted ∧
    (bufFree b s).foreign = s.foreign := by simp [bufFree]

@[simp] theorem freeAll_frame (l : List Buf) (s : State) :
    (freeAll l s).cfg = s.cfg ∧ (freeAll l s).tx = s.tx ∧ (freeAll l s).rx = s.rx ∧ (freeAll l s).pool = s.pool ∧
    (freeAll l s).flags = s.flags ∧ (freeAll l s).stats = s.stats ∧ (freeAll l s).wdt = s.wdt ∧
    (freeAll l s).link = s.link ∧ (freeAll l s).medium = s.medium ∧ (freeAll l s).intrMask = s.intrMask ∧
    (freeAll l s).mac = s.mac ∧ (freeAll l s).mem = s.mem ∧ (freeAll l s).late = s.late ∧
    (freeAll l s).frameArg = s.frameArg ∧ (freeAll l s).linkArg = s.linkArg ∧ (freeAll l s).pending = s.pending ∧
    (freeAll l s).result = s.result ∧ (freeAll l s).puller = s.puller ∧ (freeAll l s).posted = s.posted ∧
    (freeAll l s).foreign = s.foreign := by
  induction l generalizing s with
  | nil => simp [freeAll]
  | cons b l ih => simp [freeAll, ih]

@[simp] theorem dmaFree_frame (a : Addr) (n : Nat) (s : State) :
    (dmaFree a n s).cfg = s.cfg ∧ (dmaFree a n s).tx = s.tx ∧ (dmaFree a n s).rx = s.rx ∧
    (dmaFree a n s).pool = s.pool ∧ (dmaFree a n s).flags = s.flags ∧ (dmaFree a n s).stats = s.stats ∧
    (dmaFree a n s).wdt = s.wdt ∧ (dmaFree a n s).link = s.link ∧ (dmaFree a n s).medium = s.medium ∧
    (dmaFree a n s).intrMask = s.intrMask ∧ (dmaFree a n s).mac = s.mac ∧ (dmaFree a n s).mem = s.mem ∧
    (dmaFree a n s).late = s.late ∧ (dmaFree a n s).frameArg = s.frameArg ∧ (dmaFree a n s).linkArg = s.linkArg ∧
    (dmaFree a n s).pending = s.pending ∧ (dmaFree a n s).result = s.result ∧ (dmaFree a n s).puller = s.puller ∧
    (dmaFree a n s).posted = s.posted ∧ (dmaFree a n s).foreign = s.foreign := by simp [dmaFree]

@[simp] theorem signalResumable_frame (s : State) :
    (signalResumable s).cfg = s.cfg ∧ (signalResumable s).tx = s.tx ∧ (signalResumable s).rx = s.rx ∧
    (signalResumable s).pool = s.pool ∧ (signalResumable s).flags = s.flags ∧ (signalResumable s).stats = s.stats ∧
    (signalResumable s).wdt = s.wdt ∧ (signalResumable s).link = s.link ∧ (signalResumable s).medium = s.medium ∧
    (signalResumable s).intrMask = s.intrMask ∧ (signalResumable s).mac = s.mac ∧ (signalResumable s).mem = s.mem ∧
    (signalResumable s).late = s.late ∧ (signalResumable s).frameArg = s.frameArg ∧
    (signalResumable s).linkArg = s.linkArg ∧ (signalResumable s).pending = s.pending ∧
    (signalResumable s).result = s.result ∧ (signalResumable s).puller = s.puller ∧
    (signalResumable s).posted = s.posted ∧ (signalResumable s).foreign = s.foreign := by simp [signalResumable]

@[simp] theorem dequeueOutbound_frame (s : State) :
    (dequeueOutbound s).2.cfg = s.cfg ∧ (dequeueOutbound s).2.tx = s.tx ∧ (dequeueOutbound s).2.rx = s.rx ∧
    (dequeueOutbound s).2.pool = s.pool ∧ (dequeueOutbound s).2.flags = s.flags ∧
    (dequeueOutbound s).2.stats = s.stats ∧ (dequeueOutbound s).2.wdt = s.wdt ∧
    (dequeueOutbound s).2.link = s.link ∧ (dequeueOutbound s).2.medium = s.medium ∧
    (dequeueOutbound s).2.intrMask = s.intrMask ∧ (dequeueOutbound s).2.mac = s.mac ∧
    (dequeueOutbound s).2.mem = s.mem ∧ (dequeueOutbound s).2.late = s.late ∧
    (dequeueOutbound s).2.frameArg = s.frameArg ∧ (dequeueOutbound s).2.linkArg = s.linkArg ∧
    (dequeueOutbound s).2.pending = s.pending ∧ (dequeueOutbound s).2.result = s.result ∧
    (dequeueOutbound s).2.trace = s.trace ∧ (dequeueOutbound s).2.puller = s.puller ∧
    (dequeueOutbound s).2.posted = s.posted ∧ (dequeueOutbound s).2.foreign = s.foreign := by
  unfold dequeueOutbound
  split <;> simp

@[simp] theorem regWrite_frame (r : Reg) (v : Word) (s : State) :
    (regWrite r v s).cfg = s.cfg ∧ (regWrite r v s).tx = s.tx ∧ (regWrite r v s).rx = s.rx ∧
    (regWrite r v s).pool = s.pool ∧ (regWrite r v s).flags = s.flags ∧ (regWrite r v s).stats = s.stats ∧
    (regWrite r v s).wdt = s.wdt ∧ (regWrite r v s).link = s.link ∧ (regWrite r v s).medium = s.medium ∧
    (regWrite r v s).intrMask = s.intrMask ∧ (regWrite r v s).mem = s.mem ∧ (regWrite r v s).env = s.env ∧
    (regWrite r v s).frameArg = s.frameArg ∧ (regWrite r v s).linkArg = s.linkArg ∧
    (regWrite r v s).pending = s.pending ∧ (regWrite r v s).result = s.result ∧ (regWrite r v s).puller = s.puller ∧
    (regWrite r v s).foreign = s.foreign := by simp [regWrite]

@[simp] theorem writeIntrMask_frame (m : Word) (s : State) :
    (writeIntrMask m s).cfg = s.cfg ∧ (writeIntrMask m s).tx = s.tx ∧ (writeIntrMask m s).rx = s.rx ∧
    (writeIntrMask m s).pool = s.pool ∧ (writeIntrMask m s).flags = s.flags ∧ (writeIntrMask m s).stats = s.stats ∧
    (writeIntrMask m s).wdt = s.wdt ∧ (writeIntrMask m s).link = s.link ∧ (writeIntrMask m s).medium = s.medium ∧
    (writeIntrMask m s).mem = s.mem ∧ (writeIntrMask m s).late = s.late ∧ (writeIntrMask m s).env = s.env ∧
    (writeIntrMask m s).frameArg = s.frameArg ∧ (writeIntrMask m s).linkArg = s.linkArg ∧
    (writeIntrMask m s).pending = s.pending ∧ (writeIntrMask m s).result = s.result ∧
    (writeIntrMask m s).puller = s.puller ∧ (writeIntrMask m s).posted = s.posted ∧
    (writeIntrMask m s).foreign = s.foreign := by simp [writeIntrMask, regWrite, postReg]

@[simp] theorem setStatus_frame (m : Word) (s : State) :
    (setStatus m s).cfg = s.cfg ∧ (setStatus m s).tx = s.tx ∧ (setStatus m s).rx = s.rx ∧
    (setStatus m s).pool = s.pool ∧ (setStatus m s).flags = s.flags ∧ (setStatus m s).stats = s.stats ∧
    (setStatus m s).wdt = s.wdt ∧ (setStatus m s).link = s.link ∧ (setStatus m s).medium = s.medium ∧
    (setStatus m s).intrMask = s.intrMask ∧ (setStatus m s).mem = s.mem ∧ (setStatus m s).late = s.late ∧
    (setStatus m s).env = s.env ∧ (setStatus m s).frameArg = s.frameArg ∧ (setStatus m s).linkArg = s.linkArg ∧
    (setStatus m s).pending = s.pending ∧ (setStatus m s).result = s.result ∧ (setStatus m s).trace = s.trace ∧
    (setStatus m s).puller = s.puller ∧ (setStatus m s).posted = s.posted ∧ (setStatus m s).foreign = s.foreign := by
  simp [setStatus]

@[simp] theorem macTxOne_frame (s : State) :
    (macTxOne s).cfg = s.cfg ∧ (macTxOne s).tx = s.tx ∧ (macTxOne s).rx = s.rx ∧ (macTxOne s).pool = s.pool ∧
    (macTxOne s).flags = s.flags ∧ (macTxOne s).stats = s.stats ∧ (macTxOne s).wdt = s.wdt ∧
    (macTxOne s).link = s.link ∧ (macTxOne s).medium = s.medium ∧ (macTxOne s).intrMask = s.intrMask ∧
    (macTxOne s).mem = s.mem ∧ (macTxOne s).late = s.late ∧ (macTxOne s).env = s.env ∧
    (macTxOne s).frameArg = s.frameArg ∧ (macTxOne s).linkArg = s.linkArg ∧ (macTxOne s).pending = s.pending ∧
    (macTxOne s).result = s.result ∧ (macTxOne s).puller = s.puller ∧ (macTxOne s).posted = s.posted ∧
    (macTxOne s).foreign = s.foreign := by simp [macTxOne]

@[simp] theorem macTx_frame (k : Nat) (s : State) :
    (macTx k s).cfg = s.cfg ∧ (macTx k s).tx = s.tx ∧ (macTx k s).rx = s.rx ∧ (macTx k s).pool = s.pool ∧
    (macTx k s).flags = s.flags ∧ (macTx k s).stats = s.stats ∧ (macTx k s).wdt = s.wdt ∧
    (macTx k s).link = s.link ∧ (macTx k s).medium = s.medium ∧ (macTx k s).intrMask = s.intrMask ∧
    (macTx k s).mem = s.mem ∧ (macTx k s).late = s.late ∧ (macTx k s).env = s.env ∧
    (macTx k s).frameArg = s.frameArg ∧ (macTx k s).linkArg = s.linkArg ∧ (macTx k s).pending = s.pending ∧
    (macTx k s).result = s.result ∧ (macTx k s).puller = s.puller ∧ (macTx k s).posted = s.posted ∧
    (macTx k s).foreign = s.foreign := by
  induction k generalizing s with
  | zero => simp [macTx]
  | succ k ih => unfold macTx; split <;> simp [ih]

@[simp] theorem holdLate_frame (l : List Region) (s : State) :
    (holdLate l s).cfg = s.cfg ∧ (holdLate l s).tx = s.tx ∧ (holdLate l s).rx = s.rx ∧
    (holdLate l s).pool = s.pool ∧ (holdLate l s).flags = s.flags ∧ (holdLate l s).stats = s.stats ∧
    (holdLate l s).wdt = s.wdt ∧ (holdLate l s).link = s.link ∧ (holdLate l s).medium = s.medium ∧
    (holdLate l s).intrMask = s.intrMask ∧ (holdLate l s).mac = s.mac ∧ (holdLate l s).mem = s.mem ∧
    (holdLate l s).env = s.env ∧ (holdLate l s).frameArg = s.frameArg ∧ (holdLate l s).linkArg = s.linkArg ∧
    (holdLate l s).pending = s.pending ∧ (holdLate l s).result = s.result ∧ (holdLate l s).trace = s.trace ∧
    (holdLate l s).puller = s.puller ∧ (holdLate l s).posted = s.posted ∧ (holdLate l s).foreign = s.foreign := by simp [holdLate]

@[simp] theorem complete_frame (n k : Nat) (i : RxMeta) (s : State) :
    (complete n k i s).cfg = s.cfg ∧ (complete n k i s).tx = s.tx ∧ (complete n k i s).rx = s.rx ∧
    (complete n k i s).pool = s.pool ∧ (complete n k i s).flags = s.flags ∧ (complete n k i s).stats = s.stats ∧
    (complete n k i s).wdt = s.wdt ∧ (complete n k i s).link = s.link ∧ (complete n k i s).medium = s.medium ∧
    (complete n k i s).intrMask = s.intrMask ∧ (complete n k i s).mac = s.mac ∧ (complete n k i s).env = s.env ∧
    (complete n k i s).frameArg = s.frameArg ∧ (complete n k i s).linkArg = s.linkArg ∧
    (complete n k i s).pending = s.pending ∧ (complete n k i s).result = s.result ∧
    (complete n k i s).trace = s.trace ∧ (complete n k i s).puller = s.puller ∧
    (complete n k i s).posted = s.posted ∧ (complete n k i s).foreign = s.foreign := by
  unfold complete
  simp only
  split <;> simp

@[simp] theorem arrive_frame (r : Region) (s : State) :
    (arrive r s).cfg = s.cfg ∧ (arrive r s).tx = s.tx ∧ (arrive r s).rx = s.rx ∧ (arrive r s).pool = s.pool ∧
    (arrive r s).flags = s.flags ∧ (arrive r s).stats = s.stats ∧ (arrive r s).wdt = s.wdt ∧
    (arrive r s).link = s.link ∧ (arrive r s).medium = s.medium ∧ (arrive r s).intrMask = s.intrMask ∧
    (arrive r s).mac = s.mac ∧ (arrive r s).mem = s.mem ∧ (arrive r s).env = s.env ∧
    (arrive r s).frameArg = s.frameArg ∧ (arrive r s).linkArg = s.linkArg ∧ (arrive r s).pending = s.pending ∧
    (arrive r s).result = s.result ∧ (arrive r s).trace = s.trace ∧ (arrive r s).puller = s.puller ∧
    (arrive r s).posted = s.posted ∧ (arrive r s).foreign = s.foreign := by simp [arrive]

@[simp] theorem macRxOne_frame (l : List Byte) (i : RxMeta) (s : State) :
    (macRxOne l i s).cfg = s.cfg ∧ (macRxOne l i s).tx = s.tx ∧ (macRxOne l i s).rx = s.rx ∧
    (macRxOne l i s).pool = s.pool ∧ (macRxOne l i s).flags = s.flags ∧ (macRxOne l i s).stats = s.stats ∧
    (macRxOne l i s).wdt = s.wdt ∧ (macRxOne l i s).link = s.link ∧ (macRxOne l i s).medium = s.medium ∧
    (macRxOne l i s).intrMask = s.intrMask ∧ (macRxOne l i s).env = s.env ∧ (macRxOne l i s).frameArg = s.frameArg ∧
    (macRxOne l i s).linkArg = s.linkArg ∧ (macRxOne l i s).pending = s.pending ∧
    (macRxOne l i s).result = s.result ∧ (macRxOne l i s).trace = s.trace ∧ (macRxOne l i s).puller = s.puller ∧
    (macRxOne l i s).posted = s.posted ∧ (macRxOne l i s).foreign = s.foreign := by simp [macRxOne]

@[simp] theorem macStep_frame (m : MacStep) (s : State) :
    (macStep m s).cfg = s.cfg ∧ (macStep m s).tx = s.tx ∧ (macStep m s).rx = s.rx ∧ (macStep m s).pool = s.pool ∧
    (macStep m s).flags = s.flags ∧ (macStep m s).stats = s.stats ∧ (macStep m s).wdt = s.wdt ∧
    (macStep m s).link = s.link ∧ (macStep m s).medium = s.medium ∧ (macStep m s).intrMask = s.intrMask ∧
    (macStep m s).env = s.env ∧ (macStep m s).frameArg = s.frameArg ∧ (macStep m s).linkArg = s.linkArg ∧
    (macStep m s).pending = s.pending ∧ (macStep m s).result = s.result ∧ (macStep m s).puller = s.puller ∧
    (macStep m s).foreign = s.foreign := by
  unfold macStep
  repeat' split
  all_goals simp

@[simp] theorem offerFrame_frame (f : Frame) (s : State) :
    (offerFrame f s).cfg = s.cfg ∧ (offerFrame f s).tx = s.tx ∧ (offerFrame f s).rx = s.rx ∧
    (offerFrame f s).pool = s.pool ∧ (offerFrame f s).flags = s.flags ∧ (offerFrame f s).stats = s.stats ∧
    (offerFrame f s).wdt = s.wdt ∧ (offerFrame f s).link = s.link ∧ (offerFrame f s).medium = s.medium ∧
    (offerFrame f s).intrMask = s.intrMask ∧ (offerFrame f s).mac = s.mac ∧ (offerFrame f s).mem = s.mem ∧
    (offerFrame f s).late = s.late ∧ (offerFrame f s).frameArg = s.frameArg ∧ (offerFrame f s).linkArg = s.linkArg ∧
    (offerFrame f s).pending = s.pending ∧ (offerFrame f s).result = s.result ∧ (offerFrame f s).trace = s.trace ∧
    (offerFrame f s).puller = s.puller ∧ (offerFrame f s).posted = s.posted ∧ (offerFrame f s).foreign = s.foreign := by
  simp [offerFrame]

@[simp] theorem storeHeader_frame (m : TsoMode) (l : List Seg) (v : Memory) (s : State) :
    (storeHeader m l v s).cfg = s.cfg ∧ (storeHeader m l v s).tx = s.tx ∧ (storeHeader m l v s).rx = s.rx ∧
    (storeHeader m l v s).pool = s.pool ∧ (storeHeader m l v s).flags = s.flags ∧
    (storeHeader m l v s).stats = s.stats ∧ (storeHeader m l v s).wdt = s.wdt ∧
    (storeHeader m l v s).link = s.link ∧ (storeHeader m l v s).medium = s.medium ∧
    (storeHeader m l v s).intrMask = s.intrMask ∧ (storeHeader m l v s).mac = s.mac ∧
    (storeHeader m l v s).late = s.late ∧ (storeHeader m l v s).env = s.env ∧
    (storeHeader m l v s).frameArg = s.frameArg ∧ (storeHeader m l v s).linkArg = s.linkArg ∧
    (storeHeader m l v s).pending = s.pending ∧ (storeHeader m l v s).result = s.result ∧
    (storeHeader m l v s).trace = s.trace ∧ (storeHeader m l v s).puller = s.puller ∧
    (storeHeader m l v s).posted = s.posted := by simp [storeHeader]

@[simp] theorem addFree_frame (d : Word) (s : State) :
    (addFree d s).cfg = s.cfg ∧ (addFree d s).rx = s.rx ∧ (addFree d s).pool = s.pool ∧
    (addFree d s).flags = s.flags ∧ (addFree d s).stats = s.stats ∧ (addFree d s).wdt = s.wdt ∧
    (addFree d s).link = s.link ∧ (addFree d s).medium = s.medium ∧ (addFree d s).intrMask = s.intrMask ∧
    (addFree d s).mac = s.mac ∧ (addFree d s).mem = s.mem ∧ (addFree d s).late = s.late ∧
    (addFree d s).env = s.env ∧ (addFree d s).frameArg = s.frameArg ∧ (addFree d s).linkArg = s.linkArg ∧
    (addFree d s).pending = s.pending ∧ (addFree d s).result = s.result ∧ (addFree d s).trace = s.trace ∧
    (addFree d s).puller = s.puller ∧ (addFree d s).posted = s.posted ∧ (addFree d s).foreign = s.foreign := by simp [addFree]

@[simp] theorem setTxMbuf_frame (i : Half) (v : Option Frame) (s : State) :
    (setTxMbuf i v s).cfg = s.cfg ∧ (setTxMbuf i v s).rx = s.rx ∧ (setTxMbuf i v s).pool = s.pool ∧
    (setTxMbuf i v s).flags = s.flags ∧ (setTxMbuf i v s).stats = s.stats ∧ (setTxMbuf i v s).wdt = s.wdt ∧
    (setTxMbuf i v s).link = s.link ∧ (setTxMbuf i v s).medium = s.medium ∧
    (setTxMbuf i v s).intrMask = s.intrMask ∧ (setTxMbuf i v s).mac = s.mac ∧ (setTxMbuf i v s).mem = s.mem ∧
    (setTxMbuf i v s).late = s.late ∧ (setTxMbuf i v s).env = s.env ∧ (setTxMbuf i v s).frameArg = s.frameArg ∧
    (setTxMbuf i v s).linkArg = s.linkArg ∧ (setTxMbuf i v s).pending = s.pending ∧
    (setTxMbuf i v s).result = s.result ∧ (setTxMbuf i v s).trace = s.trace ∧ (setTxMbuf i v s).puller = s.puller ∧
    (setTxMbuf i v s).posted = s.posted ∧ (setTxMbuf i v s).foreign = s.foreign := by simp [setTxMbuf]

@[simp] theorem dropFrame_frame (e : CoreEvent) (r : Result) (f : Frame) (s : State) :
    (dropFrame e r f s).cfg = s.cfg ∧ (dropFrame e r f s).tx = s.tx ∧ (dropFrame e r f s).rx = s.rx ∧
    (dropFrame e r f s).pool = s.pool ∧ (dropFrame e r f s).flags = s.flags ∧ (dropFrame e r f s).wdt = s.wdt ∧
    (dropFrame e r f s).link = s.link ∧ (dropFrame e r f s).medium = s.medium ∧
    (dropFrame e r f s).intrMask = s.intrMask ∧ (dropFrame e r f s).mac = s.mac ∧ (dropFrame e r f s).mem = s.mem ∧
    (dropFrame e r f s).late = s.late ∧ (dropFrame e r f s).env = s.env ∧
    (dropFrame e r f s).frameArg = s.frameArg ∧ (dropFrame e r f s).linkArg = s.linkArg ∧
    (dropFrame e r f s).pending = s.pending ∧ (dropFrame e r f s).puller = s.puller ∧
    (dropFrame e r f s).posted = s.posted ∧ (dropFrame e r f s).foreign = s.foreign := by simp [dropFrame]

@[simp] theorem stallFrame_frame (f : Frame) (s : State) :
    (stallFrame f s).cfg = s.cfg ∧ (stallFrame f s).rx = s.rx ∧ (stallFrame f s).pool = s.pool ∧
    (stallFrame f s).flags = s.flags ∧ (stallFrame f s).wdt = s.wdt ∧ (stallFrame f s).link = s.link ∧
    (stallFrame f s).medium = s.medium ∧ (stallFrame f s).intrMask = s.intrMask ∧ (stallFrame f s).mac = s.mac ∧
    (stallFrame f s).mem = s.mem ∧ (stallFrame f s).late = s.late ∧ (stallFrame f s).env = s.env ∧
    (stallFrame f s).frameArg = s.frameArg ∧ (stallFrame f s).linkArg = s.linkArg ∧
    (stallFrame f s).pending = s.pending ∧ (stallFrame f s).puller = s.puller ∧ (stallFrame f s).posted = s.posted ∧
    (stallFrame f s).foreign = s.foreign := by simp [stallFrame]

@[simp] theorem fillOne_frame (f : Frame) (vt : Half) (cmd : Word) (g : Seg) (z : Bool) (i : Half) (s : State) :
    (fillOne f vt cmd g z i s).cfg = s.cfg ∧ (fillOne f vt cmd g z i s).rx = s.rx ∧
    (fillOne f vt cmd g z i s).pool = s.pool ∧ (fillOne f vt cmd g z i s).flags = s.flags ∧
    (fillOne f vt cmd g z i s).stats = s.stats ∧ (fillOne f vt cmd g z i s).wdt = s.wdt ∧
    (fillOne f vt cmd g z i s).link = s.link ∧ (fillOne f vt cmd g z i s).medium = s.medium ∧
    (fillOne f vt cmd g z i s).intrMask = s.intrMask ∧ (fillOne f vt cmd g z i s).mac = s.mac ∧
    (fillOne f vt cmd g z i s).late = s.late ∧ (fillOne f vt cmd g z i s).env = s.env ∧
    (fillOne f vt cmd g z i s).frameArg = s.frameArg ∧ (fillOne f vt cmd g z i s).linkArg = s.linkArg ∧
    (fillOne f vt cmd g z i s).pending = s.pending ∧ (fillOne f vt cmd g z i s).result = s.result ∧
    (fillOne f vt cmd g z i s).trace = s.trace ∧ (fillOne f vt cmd g z i s).puller = s.puller ∧
    (fillOne f vt cmd g z i s).posted = s.posted ∧ (fillOne f vt cmd g z i s).foreign = s.foreign := by simp [fillOne]

@[simp] theorem fillContext_frame (vt : Half) (cmd t : Word) (i : Half) (s : State) :
    (fillContext vt cmd t i s).cfg = s.cfg ∧ (fillContext vt cmd t i s).rx = s.rx ∧
    (fillContext vt cmd t i s).pool = s.pool ∧ (fillContext vt cmd t i s).flags = s.flags ∧
    (fillContext vt cmd t i s).stats = s.stats ∧ (fillContext vt cmd t i s).wdt = s.wdt ∧
    (fillContext vt cmd t i s).link = s.link ∧ (fillContext vt cmd t i s).medium = s.medium ∧
    (fillContext vt cmd t i s).intrMask = s.intrMask ∧ (fillContext vt cmd t i s).mac = s.mac ∧
    (fillContext vt cmd t i s).late = s.late ∧ (fillContext vt cmd t i s).env = s.env ∧
    (fillContext vt cmd t i s).frameArg = s.frameArg ∧ (fillContext vt cmd t i s).linkArg = s.linkArg ∧
    (fillContext vt cmd t i s).pending = s.pending ∧ (fillContext vt cmd t i s).result = s.result ∧
    (fillContext vt cmd t i s).trace = s.trace ∧ (fillContext vt cmd t i s).puller = s.puller ∧
    (fillContext vt cmd t i s).posted = s.posted ∧ (fillContext vt cmd t i s).foreign = s.foreign := by simp [fillContext]

@[simp] theorem fillData_frame (f : Frame) (vt : Half) (cmd : Word) (l : List Seg) (i : Half) (s : State) :
    (fillData f vt cmd l i s).2.cfg = s.cfg ∧ (fillData f vt cmd l i s).2.rx = s.rx ∧
    (fillData f vt cmd l i s).2.pool = s.pool ∧ (fillData f vt cmd l i s).2.flags = s.flags ∧
    (fillData f vt cmd l i s).2.stats = s.stats ∧ (fillData f vt cmd l i s).2.wdt = s.wdt ∧
    (fillData f vt cmd l i s).2.link = s.link ∧ (fillData f vt cmd l i s).2.medium = s.medium ∧
    (fillData f vt cmd l i s).2.intrMask = s.intrMask ∧ (fillData f vt cmd l i s).2.mac = s.mac ∧
    (fillData f vt cmd l i s).2.late = s.late ∧ (fillData f vt cmd l i s).2.env = s.env ∧
    (fillData f vt cmd l i s).2.frameArg = s.frameArg ∧ (fillData f vt cmd l i s).2.linkArg = s.linkArg ∧
    (fillData f vt cmd l i s).2.pending = s.pending ∧ (fillData f vt cmd l i s).2.result = s.result ∧
    (fillData f vt cmd l i s).2.trace = s.trace ∧ (fillData f vt cmd l i s).2.puller = s.puller ∧
    (fillData f vt cmd l i s).2.posted = s.posted ∧ (fillData f vt cmd l i s).2.foreign = s.foreign := by
  induction l generalizing i s with
  | nil => simp [fillData]
  | cons g l ih => simp [fillData, ih]

@[simp] theorem publish_frame (i : Half) (s : State) :
    (publish i s).cfg = s.cfg ∧ (publish i s).rx = s.rx ∧ (publish i s).pool = s.pool ∧
    (publish i s).flags = s.flags ∧ (publish i s).stats = s.stats ∧ (publish i s).wdt = s.wdt ∧
    (publish i s).link = s.link ∧ (publish i s).medium = s.medium ∧ (publish i s).intrMask = s.intrMask ∧
    (publish i s).mem = s.mem ∧ (publish i s).env = s.env ∧ (publish i s).frameArg = s.frameArg ∧
    (publish i s).linkArg = s.linkArg ∧ (publish i s).pending = s.pending ∧ (publish i s).puller = s.puller ∧
    (publish i s).foreign = s.foreign := by simp [publish]

@[simp] theorem fillPublish_frame (f : Frame) (l : List Seg) (ctx : Option Word) (s : State) :
    (fillPublish f l ctx s).cfg = s.cfg ∧ (fillPublish f l ctx s).rx = s.rx ∧
    (fillPublish f l ctx s).pool = s.pool ∧ (fillPublish f l ctx s).flags = s.flags ∧
    (fillPublish f l ctx s).stats = s.stats ∧ (fillPublish f l ctx s).wdt = s.wdt ∧
    (fillPublish f l ctx s).link = s.link ∧ (fillPublish f l ctx s).medium = s.medium ∧
    (fillPublish f l ctx s).intrMask = s.intrMask ∧ (fillPublish f l ctx s).env = s.env ∧
    (fillPublish f l ctx s).frameArg = s.frameArg ∧ (fillPublish f l ctx s).linkArg = s.linkArg ∧
    (fillPublish f l ctx s).pending = s.pending ∧ (fillPublish f l ctx s).puller = s.puller ∧
    (fillPublish f l ctx s).foreign = s.foreign := by
  cases ctx <;> simp [fillPublish, fill]

@[simp] theorem beginPull_frame (s : State) :
    (beginPull s).cfg = s.cfg ∧ (beginPull s).tx = s.tx ∧ (beginPull s).rx = s.rx ∧ (beginPull s).pool = s.pool ∧
    (beginPull s).flags = s.flags ∧ (beginPull s).stats = s.stats ∧ (beginPull s).wdt = s.wdt ∧
    (beginPull s).link = s.link ∧ (beginPull s).medium = s.medium ∧ (beginPull s).intrMask = s.intrMask ∧
    (beginPull s).mac = s.mac ∧ (beginPull s).mem = s.mem ∧ (beginPull s).late = s.late ∧
    (beginPull s).frameArg = s.frameArg ∧ (beginPull s).linkArg = s.linkArg ∧ (beginPull s).pending = s.pending ∧
    (beginPull s).result = s.result ∧ (beginPull s).trace = s.trace ∧ (beginPull s).posted = s.posted ∧
    (beginPull s).foreign = s.foreign := by simp [beginPull]

@[simp] theorem pullNext_frame (s : State) :
    (pullNext s).cfg = s.cfg ∧ (pullNext s).tx = s.tx ∧ (pullNext s).rx = s.rx ∧ (pullNext s).pool = s.pool ∧
    (pullNext s).flags = s.flags ∧ (pullNext s).stats = s.stats ∧ (pullNext s).wdt = s.wdt ∧
    (pullNext s).link = s.link ∧ (pullNext s).medium = s.medium ∧ (pullNext s).intrMask = s.intrMask ∧
    (pullNext s).mac = s.mac ∧ (pullNext s).mem = s.mem ∧ (pullNext s).late = s.late ∧
    (pullNext s).frameArg = s.frameArg ∧ (pullNext s).linkArg = s.linkArg ∧ (pullNext s).pending = s.pending ∧
    (pullNext s).result = s.result ∧ (pullNext s).trace = s.trace ∧ (pullNext s).posted = s.posted ∧
    (pullNext s).foreign = s.foreign := by
  unfold pullNext
  rcases h : dequeueOutbound s with ⟨_ | f, s1⟩ <;> cases congrArg Prod.snd h <;> simp

theorem enqueueReserved_frame {m : TsoMode} {f : Frame} {l : List Seg} {s t : State} (h : enqueueReserved m f l s = .next t) :
    t.cfg = s.cfg ∧ t.rx = s.rx ∧ t.pool = s.pool ∧ t.flags = s.flags ∧ t.stats = s.stats ∧ t.wdt = s.wdt ∧
    t.link = s.link ∧ t.medium = s.medium ∧ t.intrMask = s.intrMask ∧ t.env = s.env ∧ t.frameArg = s.frameArg ∧
    t.linkArg = s.linkArg ∧ t.pending = s.pending ∧ t.puller = s.puller := by
  unfold enqueueReserved at h
  repeat' split at h
  all_goals cases h
  simp

theorem enqueue_frame {m : TsoMode} {r : Bool} {f : Frame} {s t : State} (h : enqueue m r f s = .next t) :
    t.cfg = s.cfg ∧ t.rx = s.rx ∧ t.pool = s.pool ∧ t.flags = s.flags ∧ t.wdt = s.wdt ∧ t.link = s.link ∧
    t.medium = s.medium ∧ t.intrMask = s.intrMask ∧ t.env = s.env ∧ t.frameArg = s.frameArg ∧
    t.linkArg = s.linkArg ∧ t.pending = s.pending ∧ t.puller = s.puller := by
  unfold enqueue at h
  split at h
  · cases h
  split at h
  · cases h; simp
  split at h
  · cases h; simp
  · cases h; simp
  dsimp only at h
  split at h
  · cases h; simp
  · simp [enqueueReserved_frame h]

theorem pullStep_frame {s t : State} (h : pullStep s = .next t) :
    t.cfg = s.cfg ∧ t.rx = s.rx ∧ t.pool = s.pool ∧ t.flags = s.flags ∧ t.wdt = s.wdt ∧ t.link = s.link ∧
    t.medium = s.medium ∧ t.intrMask = s.intrMask ∧ t.frameArg = s.frameArg ∧ t.linkArg = s.linkArg ∧
    t.pending = s.pending ∧ t.result = s.result := by
  unfold pullStep at h
  split at h
  · cases h; simp
  · cases h; simp
  · cases h; split <;> simp
  · rename_i f hp
    unfold pullSend andThen at h
    split at h
    · rename_i u hu
      cases h
      simp [enqueue_frame hu]
    · cases h
    · cases h

theorem pullTurn_frame {s t : State} (h : pullTurn s = .next t) :
    t.cfg = s.cfg ∧ t.rx = s.rx ∧ t.pool = s.pool ∧ t.flags = s.flags ∧ t.wdt = s.wdt ∧ t.link = s.link ∧
    t.medium = s.medium ∧ t.intrMask = s.intrMask ∧ t.frameArg = s.frameArg ∧ t.linkArg = s.linkArg ∧
    t.pending = s.pending ∧ t.result = s.result := by
  unfold pullTurn at h
  split at h
  · cases h; simp
  split at h
  · exact pullStep_frame h
  · cases h; split <;> simp

@[simp] theorem pullInside_frame (s : State) :
    (pullInside s).cfg = s.cfg ∧ (pullInside s).rx = s.rx ∧ (pullInside s).pool = s.pool ∧
    (pullInside s).flags = s.flags ∧ (pullInside s).wdt = s.wdt ∧ (pullInside s).link = s.link ∧
    (pullInside s).medium = s.medium ∧ (pullInside s).intrMask = s.intrMask ∧ (pullInside s).frameArg = s.frameArg ∧
    (pullInside s).linkArg = s.linkArg ∧ (pullInside s).pending = s.pending ∧ (pullInside s).result = s.result := by
  unfold pullInside
  split
  · rename_i t h
    simp [pullTurn_frame h]
  · simp
  · simp

@[simp] theorem hostWrite_frame (a : Addr) (l : List Byte) (s : State) :
    (hostWrite a l s).cfg = s.cfg ∧ (hostWrite a l s).tx = s.tx ∧ (hostWrite a l s).rx = s.rx ∧
    (hostWrite a l s).pool = s.pool ∧ (hostWrite a l s).flags = s.flags ∧ (hostWrite a l s).stats = s.stats ∧
    (hostWrite a l s).wdt = s.wdt ∧ (hostWrite a l s).link = s.link ∧ (hostWrite a l s).medium = s.medium ∧
    (hostWrite a l s).intrMask = s.intrMask ∧ (hostWrite a l s).mac = s.mac ∧ (hostWrite a l s).late = s.late ∧
    (hostWrite a l s).env = s.env ∧ (hostWrite a l s).frameArg = s.frameArg ∧
    (hostWrite a l s).linkArg = s.linkArg ∧ (hostWrite a l s).pending = s.pending ∧
    (hostWrite a l s).result = s.result ∧ (hostWrite a l s).trace = s.trace ∧ (hostWrite a l s).puller = s.puller ∧
    (hostWrite a l s).posted = s.posted ∧ (hostWrite a l s).foreign = s.foreign := by
  unfold hostWrite
  split <;> simp

@[simp] theorem bufReturn_frame (r : Region) (s : State) :
    (bufReturn r s).cfg = s.cfg ∧ (bufReturn r s).tx = s.tx ∧ (bufReturn r s).rx = s.rx ∧
    (bufReturn r s).pool = s.pool ∧ (bufReturn r s).flags = s.flags ∧ (bufReturn r s).stats = s.stats ∧
    (bufReturn r s).wdt = s.wdt ∧ (bufReturn r s).link = s.link ∧ (bufReturn r s).medium = s.medium ∧
    (bufReturn r s).intrMask = s.intrMask ∧ (bufReturn r s).mac = s.mac ∧ (bufReturn r s).mem = s.mem ∧
    (bufReturn r s).late = s.late ∧ (bufReturn r s).frameArg = s.frameArg ∧ (bufReturn r s).linkArg = s.linkArg ∧
    (bufReturn r s).pending = s.pending ∧ (bufReturn r s).result = s.result ∧ (bufReturn r s).trace = s.trace ∧
    (bufReturn r s).puller = s.puller ∧ (bufReturn r s).posted = s.posted ∧ (bufReturn r s).foreign = s.foreign := by
  unfold bufReturn
  split <;> simp

@[simp] theorem midStep_frame (m : MidStep) (s : State) :
    (midStep m s).cfg = s.cfg ∧ (midStep m s).rx = s.rx ∧ (midStep m s).pool = s.pool ∧
    (midStep m s).flags = s.flags ∧ (midStep m s).wdt = s.wdt ∧ (midStep m s).link = s.link ∧
    (midStep m s).medium = s.medium ∧ (midStep m s).intrMask = s.intrMask ∧ (midStep m s).frameArg = s.frameArg ∧
    (midStep m s).linkArg = s.linkArg ∧ (midStep m s).pending = s.pending ∧ (midStep m s).result = s.result := by
  cases m <;> simp [midStep]

@[simp] theorem macSteps_frame (l : List MidStep) (s : State) :
    (macSteps l s).cfg = s.cfg ∧ (macSteps l s).rx = s.rx ∧ (macSteps l s).pool = s.pool ∧
    (macSteps l s).flags = s.flags ∧ (macSteps l s).wdt = s.wdt ∧ (macSteps l s).link = s.link ∧
    (macSteps l s).medium = s.medium ∧ (macSteps l s).intrMask = s.intrMask ∧ (macSteps l s).frameArg = s.frameArg ∧
    (macSteps l s).linkArg = s.linkArg ∧ (macSteps l s).pending = s.pending ∧ (macSteps l s).result = s.result := by
  induction l generalizing s with
  | nil => simp [macSteps]
  | cons x l ih => simp [macSteps, ih]

@[simp] theorem dropPoint_frame (s : State) :
    (dropPoint s).cfg = s.cfg ∧ (dropPoint s).tx = s.tx ∧ (dropPoint s).rx = s.rx ∧ (dropPoint s).pool = s.pool ∧
    (dropPoint s).flags = s.flags ∧ (dropPoint s).stats = s.stats ∧ (dropPoint s).wdt = s.wdt ∧
    (dropPoint s).link = s.link ∧ (dropPoint s).medium = s.medium ∧ (dropPoint s).intrMask = s.intrMask ∧
    (dropPoint s).mac = s.mac ∧ (dropPoint s).mem = s.mem ∧ (dropPoint s).late = s.late ∧
    (dropPoint s).frameArg = s.frameArg ∧ (dropPoint s).linkArg = s.linkArg ∧ (dropPoint s).pending = s.pending ∧
    (dropPoint s).result = s.result ∧ (dropPoint s).trace = s.trace ∧ (dropPoint s).puller = s.puller ∧
    (dropPoint s).posted = s.posted ∧ (dropPoint s).foreign = s.foreign := by simp [dropPoint]

@[simp] theorem macPoint_frame (s : State) :
    (macPoint s).cfg = s.cfg ∧ (macPoint s).rx = s.rx ∧ (macPoint s).pool = s.pool ∧ (macPoint s).flags = s.flags ∧
    (macPoint s).wdt = s.wdt ∧ (macPoint s).link = s.link ∧ (macPoint s).medium = s.medium ∧
    (macPoint s).intrMask = s.intrMask ∧ (macPoint s).frameArg = s.frameArg ∧ (macPoint s).linkArg = s.linkArg ∧
    (macPoint s).pending = s.pending ∧ (macPoint s).result = s.result := by simp [macPoint]

@[simp] theorem flushLoop_frame (n : Nat) (s : State) :
    (flushLoop n s).cfg = s.cfg ∧ (flushLoop n s).rx = s.rx ∧ (flushLoop n s).pool = s.pool ∧
    (flushLoop n s).flags = s.flags ∧ (flushLoop n s).wdt = s.wdt ∧ (flushLoop n s).link = s.link ∧
    (flushLoop n s).medium = s.medium ∧ (flushLoop n s).intrMask = s.intrMask ∧
    (flushLoop n s).frameArg = s.frameArg ∧ (flushLoop n s).linkArg = s.linkArg ∧
    (flushLoop n s).pending = s.pending ∧ (flushLoop n s).result = s.result := by
  induction n generalizing s with
  | zero => simp [flushLoop]
  | succ n ih =>
    unfold flushLoop
    rcases h : dequeueOutbound s with ⟨_ | f, s1⟩ <;> cases congrArg Prod.snd h <;> simp [ih]

@[simp] theorem flushOutbound_frame (s : State) :
    (flushOutbound s).cfg = s.cfg ∧ (flushOutbound s).rx = s.rx ∧ (flushOutbound s).pool = s.pool ∧
    (flushOutbound s).flags = s.flags ∧ (flushOutbound s).wdt = s.wdt ∧ (flushOutbound s).link = s.link ∧
    (flushOutbound s).medium = s.medium ∧ (flushOutbound s).intrMask = s.intrMask ∧
    (flushOutbound s).frameArg = s.frameArg ∧ (flushOutbound s).linkArg = s.linkArg ∧
    (flushOutbound s).pending = s.pending ∧ (flushOutbound s).result = s.result := by simp [flushOutbound]

@[simp] theorem reclaimOne_frame (s : State) :
    (reclaimOne s).cfg = s.cfg ∧ (reclaimOne s).rx = s.rx ∧ (reclaimOne s).pool = s.pool ∧
    (reclaimOne s).flags = s.flags ∧ (reclaimOne s).stats = s.stats ∧ (reclaimOne s).wdt = s.wdt ∧
    (reclaimOne s).link = s.link ∧ (reclaimOne s).medium = s.medium ∧ (reclaimOne s).intrMask = s.intrMask ∧
    (reclaimOne s).mac = s.mac ∧ (reclaimOne s).mem = s.mem ∧ (reclaimOne s).late = s.late ∧
    (reclaimOne s).env = s.env ∧ (reclaimOne s).frameArg = s.frameArg ∧ (reclaimOne s).linkArg = s.linkArg ∧
    (reclaimOne s).pending = s.pending ∧ (reclaimOne s).result = s.result ∧ (reclaimOne s).puller = s.puller ∧
    (reclaimOne s).posted = s.posted ∧ (reclaimOne s).foreign = s.foreign := by
  unfold reclaimOne
  simp only
  split <;> simp

@[simp] theorem reclaimMany_frame (n : Nat) (s : State) :
    (reclaimMany n s).cfg = s.cfg ∧ (reclaimMany n s).rx = s.rx ∧ (reclaimMany n s).pool = s.pool ∧
    (reclaimMany n s).flags = s.flags ∧ (reclaimMany n s).wdt = s.wdt ∧ (reclaimMany n s).link = s.link ∧
    (reclaimMany n s).medium = s.medium ∧ (reclaimMany n s).intrMask = s.intrMask ∧
    (reclaimMany n s).frameArg = s.frameArg ∧ (reclaimMany n s).linkArg = s.linkArg ∧
    (reclaimMany n s).pending = s.pending ∧ (reclaimMany n s).result = s.result := by
  induction n generalizing s with
  | zero => simp [reclaimMany]
  | succ n ih => simp [reclaimMany, ih]

@[simp] theorem wake_frame (s : State) :
    (wake s).cfg = s.cfg ∧ (wake s).rx = s.rx ∧ (wake s).pool = s.pool ∧ (wake s).flags = s.flags ∧
    (wake s).wdt = s.wdt ∧ (wake s).link = s.link ∧ (wake s).medium = s.medium ∧ (wake s).intrMask = s.intrMask ∧
    (wake s).frameArg = s.frameArg ∧ (wake s).linkArg = s.linkArg ∧ (wake s).pending = s.pending ∧
    (wake s).result = s.result := by
  unfold wake
  split
  · dsimp only
    simp
  · simp

@[simp] theorem addSpares_frame (n : Nat) (s : State) :
    (addSpares n s).cfg = s.cfg ∧ (addSpares n s).tx = s.tx ∧ (addSpares n s).rx = s.rx ∧
    (addSpares n s).flags = s.flags ∧ (addSpares n s).stats = s.stats ∧ (addSpares n s).wdt = s.wdt ∧
    (addSpares n s).link = s.link ∧ (addSpares n s).medium = s.medium ∧ (addSpares n s).intrMask = s.intrMask ∧
    (addSpares n s).mac = s.mac ∧ (addSpares n s).late = s.late ∧ (addSpares n s).frameArg = s.frameArg ∧
    (addSpares n s).linkArg = s.linkArg ∧ (addSpares n s).pending = s.pending ∧ (addSpares n s).result = s.result ∧
    (addSpares n s).trace = s.trace ∧ (addSpares n s).puller = s.puller ∧ (addSpares n s).posted = s.posted ∧
    (addSpares n s).foreign = s.foreign := by
  induction n generalizing s with
  | zero => simp [addSpares]
  | succ n ih =>
    unfold addSpares
    rcases h : rxBufAlloc s with ⟨_ | x, s1⟩ <;> cases congrArg Prod.snd h <;> simp [ih]

@[simp] theorem clearRefill_frame (s : State) :
    (clearRefill s).cfg = s.cfg ∧ (clearRefill s).tx = s.tx ∧ (clearRefill s).rx = s.rx ∧
    (clearRefill s).flags = s.flags ∧ (clearRefill s).stats = s.stats ∧ (clearRefill s).wdt = s.wdt ∧
    (clearRefill s).link = s.link ∧ (clearRefill s).medium = s.medium ∧ (clearRefill s).intrMask = s.intrMask ∧
    (clearRefill s).mac = s.mac ∧ (clearRefill s).mem = s.mem ∧ (clearRefill s).late = s.late ∧
    (clearRefill s).env = s.env ∧ (clearRefill s).frameArg = s.frameArg ∧ (clearRefill s).linkArg = s.linkArg ∧
    (clearRefill s).pending = s.pending ∧ (clearRefill s).result = s.result ∧ (clearRefill s).trace = s.trace ∧
    (clearRefill s).puller = s.puller ∧ (clearRefill s).posted = s.posted ∧ (clearRefill s).foreign = s.foreign := by
  simp [clearRefill]

@[simp] theorem refill_frame (s : State) :
    (refill s).cfg = s.cfg ∧ (refill s).tx = s.tx ∧ (refill s).rx = s.rx ∧ (refill s).flags = s.flags ∧
    (refill s).stats = s.stats ∧ (refill s).wdt = s.wdt ∧ (refill s).link = s.link ∧ (refill s).medium = s.medium ∧
    (refill s).intrMask = s.intrMask ∧ (refill s).mac = s.mac ∧ (refill s).late = s.late ∧
    (refill s).frameArg = s.frameArg ∧ (refill s).linkArg = s.linkArg ∧ (refill s).pending = s.pending ∧
    (refill s).result = s.result ∧ (refill s).trace = s.trace ∧ (refill s).puller = s.puller ∧
    (refill s).posted = s.posted ∧ (refill s).foreign = s.foreign := by
  unfold refill
  split <;> simp

@[simp] theorem zeroRings_frame (s : State) :
    (zeroRings s).cfg = s.cfg ∧ (zeroRings s).tx = s.tx ∧ (zeroRings s).rx = s.rx ∧ (zeroRings s).pool = s.pool ∧
    (zeroRings s).flags = s.flags ∧ (zeroRings s).stats = s.stats ∧ (zeroRings s).wdt = s.wdt ∧
    (zeroRings s).link = s.link ∧ (zeroRings s).medium = s.medium ∧ (zeroRings s).intrMask = s.intrMask ∧
    (zeroRings s).mac = s.mac ∧ (zeroRings s).late = s.late ∧ (zeroRings s).env = s.env ∧
    (zeroRings s).frameArg = s.frameArg ∧ (zeroRings s).linkArg = s.linkArg ∧ (zeroRings s).pending = s.pending ∧
    (zeroRings s).result = s.result ∧ (zeroRings s).trace = s.trace ∧ (zeroRings s).puller = s.puller ∧
    (zeroRings s).posted = s.posted ∧ (zeroRings s).foreign = s.foreign := by simp [zeroRings]

@[simp] theorem freeRings_frame (s : State) :
    (freeRings s).cfg = s.cfg ∧ (freeRings s).tx = s.tx ∧ (freeRings s).rx = s.rx ∧ (freeRings s).pool = s.pool ∧
    (freeRings s).flags = s.flags ∧ (freeRings s).stats = s.stats ∧ (freeRings s).wdt = s.wdt ∧
    (freeRings s).link = s.link ∧ (freeRings s).medium = s.medium ∧ (freeRings s).intrMask = s.intrMask ∧
    (freeRings s).mac = s.mac ∧ (freeRings s).mem = s.mem ∧ (freeRings s).late = s.late ∧
    (freeRings s).frameArg = s.frameArg ∧ (freeRings s).linkArg = s.linkArg ∧ (freeRings s).pending = s.pending ∧
    (freeRings s).result = s.result ∧ (freeRings s).puller = s.puller ∧ (freeRings s).posted = s.posted ∧
    (freeRings s).foreign = s.foreign := by simp [freeRings]

@[simp] theorem dropArrays_frame (s : State) :
    (dropArrays s).cfg = s.cfg ∧ (dropArrays s).pool = s.pool ∧ (dropArrays s).stats = s.stats ∧
    (dropArrays s).wdt = s.wdt ∧ (dropArrays s).link = s.link ∧ (dropArrays s).medium = s.medium ∧
    (dropArrays s).intrMask = s.intrMask ∧ (dropArrays s).mac = s.mac ∧ (dropArrays s).mem = s.mem ∧
    (dropArrays s).late = s.late ∧ (dropArrays s).env = s.env ∧ (dropArrays s).frameArg = s.frameArg ∧
    (dropArrays s).linkArg = s.linkArg ∧ (dropArrays s).pending = s.pending ∧ (dropArrays s).result = s.result ∧
    (dropArrays s).trace = s.trace ∧ (dropArrays s).puller = s.puller ∧ (dropArrays s).posted = s.posted ∧
    (dropArrays s).foreign = s.foreign := by simp [dropArrays]

@[simp] theorem clearRxCursors_frame (s : State) :
    (clearRxCursors s).cfg = s.cfg ∧ (clearRxCursors s).tx = s.tx ∧ (clearRxCursors s).pool = s.pool ∧
    (clearRxCursors s).flags = s.flags ∧ (clearRxCursors s).stats = s.stats ∧ (clearRxCursors s).wdt = s.wdt ∧
    (clearRxCursors s).link = s.link ∧ (clearRxCursors s).medium = s.medium ∧
    (clearRxCursors s).intrMask = s.intrMask ∧ (clearRxCursors s).mac = s.mac ∧ (clearRxCursors s).mem = s.mem ∧
    (clearRxCursors s).late = s.late ∧ (clearRxCursors s).env = s.env ∧ (clearRxCursors s).frameArg = s.frameArg ∧
    (clearRxCursors s).linkArg = s.linkArg ∧ (clearRxCursors s).pending = s.pending ∧
    (clearRxCursors s).result = s.result ∧ (clearRxCursors s).trace = s.trace ∧
    (clearRxCursors s).puller = s.puller ∧ (clearRxCursors s).posted = s.posted ∧
    (clearRxCursors s).foreign = s.foreign := by simp [clearRxCursors]

@[simp] theorem postBuffers_frame (n i : Nat) (s : State) :
    (postBuffers n i s).2.cfg = s.cfg ∧ (postBuffers n i s).2.tx = s.tx ∧ (postBuffers n i s).2.pool = s.pool ∧
    (postBuffers n i s).2.flags = s.flags ∧ (postBuffers n i s).2.stats = s.stats ∧
    (postBuffers n i s).2.wdt = s.wdt ∧ (postBuffers n i s).2.link = s.link ∧
    (postBuffers n i s).2.medium = s.medium ∧ (postBuffers n i s).2.intrMask = s.intrMask ∧
    (postBuffers n i s).2.mac = s.mac ∧ (postBuffers n i s).2.late = s.late ∧
    (postBuffers n i s).2.frameArg = s.frameArg ∧ (postBuffers n i s).2.linkArg = s.linkArg ∧
    (postBuffers n i s).2.pending = s.pending ∧ (postBuffers n i s).2.result = s.result ∧
    (postBuffers n i s).2.trace = s.trace ∧ (postBuffers n i s).2.puller = s.puller ∧
    (postBuffers n i s).2.posted = s.posted ∧ (postBuffers n i s).2.foreign = s.foreign := by
  induction n generalizing i s with
  | zero => simp [postBuffers]
  | succ n ih =>
    unfold postBuffers
    rcases h : rxBufAlloc s with ⟨_ | x, s1⟩ <;> cases congrArg Prod.snd h <;> simp [ih]

@[simp] theorem allocRegions_frame (s : State) :
    (allocRegions s).2.cfg = s.cfg ∧ (allocRegions s).2.tx = s.tx ∧ (allocRegions s).2.rx = s.rx ∧
    (allocRegions s).2.pool = s.pool ∧ (allocRegions s).2.flags = s.flags ∧ (allocRegions s).2.stats = s.stats ∧
    (allocRegions s).2.wdt = s.wdt ∧ (allocRegions s).2.link = s.link ∧ (allocRegions s).2.medium = s.medium ∧
    (allocRegions s).2.intrMask = s.intrMask ∧ (allocRegions s).2.mac = s.mac ∧ (allocRegions s).2.mem = s.mem ∧
    (allocRegions s).2.late = s.late ∧ (allocRegions s).2.frameArg = s.frameArg ∧
    (allocRegions s).2.linkArg = s.linkArg ∧ (allocRegions s).2.pending = s.pending ∧
    (allocRegions s).2.result = s.result ∧ (allocRegions s).2.puller = s.puller ∧
    (allocRegions s).2.posted = s.posted ∧ (allocRegions s).2.foreign = s.foreign := by
  unfold allocRegions
  rcases h1 : dmaAlloc (txBytes s.cfg) s with ⟨_ | t, s1⟩ <;> cases congrArg Prod.snd h1
  · simp
  dsimp only
  rcases h2 : dmaAlloc (rrdBytes s.cfg) (dmaAlloc (txBytes s.cfg) s).2 with ⟨_ | r, s2⟩ <;> cases congrArg Prod.snd h2
  · simp
  dsimp only
  rcases h3 : dmaAlloc (rfdBytes s.cfg) (dmaAlloc (rrdBytes s.cfg) (dmaAlloc (txBytes s.cfg) s).2).2 with
    ⟨_ | q, s3⟩ <;> cases congrArg Prod.snd h3 <;> simp

@[simp] theorem placeRings_frame (t r q : Addr) (s : State) :
    (placeRings t r q s).cfg = s.cfg ∧ (placeRings t r q s).pool = s.pool ∧ (placeRings t r q s).flags = s.flags ∧
    (placeRings t r q s).stats = s.stats ∧ (placeRings t r q s).wdt = s.wdt ∧ (placeRings t r q s).link = s.link ∧
    (placeRings t r q s).medium = s.medium ∧ (placeRings t r q s).intrMask = s.intrMask ∧
    (placeRings t r q s).mac = s.mac ∧ (placeRings t r q s).env = s.env ∧
    (placeRings t r q s).frameArg = s.frameArg ∧ (placeRings t r q s).linkArg = s.linkArg ∧
    (placeRings t r q s).pending = s.pending ∧ (placeRings t r q s).result = s.result ∧
    (placeRings t r q s).trace = s.trace ∧ (placeRings t r q s).puller = s.puller ∧
    (placeRings t r q s).posted = s.posted ∧ (placeRings t r q s).foreign = s.foreign := by simp [placeRings]

@[simp] theorem setupFail_frame (s : State) :
    (setupFail s).cfg = s.cfg ∧ (setupFail s).tx = s.tx ∧ (setupFail s).rx = s.rx ∧ (setupFail s).pool = s.pool ∧
    (setupFail s).flags = s.flags ∧ (setupFail s).wdt = s.wdt ∧ (setupFail s).link = s.link ∧
    (setupFail s).medium = s.medium ∧ (setupFail s).intrMask = s.intrMask ∧ (setupFail s).mac = s.mac ∧
    (setupFail s).mem = s.mem ∧ (setupFail s).late = s.late ∧ (setupFail s).env = s.env ∧
    (setupFail s).frameArg = s.frameArg ∧ (setupFail s).linkArg = s.linkArg ∧ (setupFail s).pending = s.pending ∧
    (setupFail s).puller = s.puller ∧ (setupFail s).posted = s.posted ∧ (setupFail s).foreign = s.foreign := by simp [setupFail]

@[simp] theorem unwind_frame (s : State) :
    (unwind s).cfg = s.cfg ∧ (unwind s).pool = s.pool ∧ (unwind s).wdt = s.wdt ∧ (unwind s).link = s.link ∧
    (unwind s).medium = s.medium ∧ (unwind s).intrMask = s.intrMask ∧ (unwind s).mac = s.mac ∧
    (unwind s).mem = s.mem ∧ (unwind s).frameArg = s.frameArg ∧ (unwind s).linkArg = s.linkArg ∧
    (unwind s).pending = s.pending ∧ (unwind s).puller = s.puller ∧ (unwind s).posted = s.posted ∧
    (unwind s).foreign = s.foreign := by simp [unwind]

@[simp] theorem populatePool_frame (s : State) :
    (populatePool s).cfg = s.cfg ∧ (populatePool s).tx = s.tx ∧ (populatePool s).rx = s.rx ∧
    (populatePool s).flags = s.flags ∧ (populatePool s).stats = s.stats ∧ (populatePool s).wdt = s.wdt ∧
    (populatePool s).link = s.link ∧ (populatePool s).medium = s.medium ∧ (populatePool s).intrMask = s.intrMask ∧
    (populatePool s).mac = s.mac ∧ (populatePool s).late = s.late ∧ (populatePool s).frameArg = s.frameArg ∧
    (populatePool s).linkArg = s.linkArg ∧ (populatePool s).pending = s.pending ∧
    (populatePool s).result = s.result ∧ (populatePool s).trace = s.trace ∧ (populatePool s).puller = s.puller ∧
    (populatePool s).posted = s.posted ∧ (populatePool s).foreign = s.foreign := by simp [populatePool]

@[simp] theorem setupDone_frame (s : State) :
    (setupDone s).cfg = s.cfg ∧ (setupDone s).tx = s.tx ∧ (setupDone s).stats = s.stats ∧
    (setupDone s).wdt = s.wdt ∧ (setupDone s).link = s.link ∧ (setupDone s).medium = s.medium ∧
    (setupDone s).intrMask = s.intrMask ∧ (setupDone s).late = s.late ∧ (setupDone s).frameArg = s.frameArg ∧
    (setupDone s).linkArg = s.linkArg ∧ (setupDone s).pending = s.pending ∧ (setupDone s).trace = s.trace ∧
    (setupDone s).puller = s.puller ∧ (setupDone s).posted = s.posted ∧ (setupDone s).foreign = s.foreign := by simp [setupDone]

@[simp] theorem ringSetup_frame (s : State) :
    (ringSetup s).cfg = s.cfg ∧ (ringSetup s).wdt = s.wdt ∧ (ringSetup s).link = s.link ∧
    (ringSetup s).medium = s.medium ∧ (ringSetup s).intrMask = s.intrMask ∧ (ringSetup s).frameArg = s.frameArg ∧
    (ringSetup s).linkArg = s.linkArg ∧ (ringSetup s).pending = s.pending ∧ (ringSetup s).puller = s.puller ∧
    (ringSetup s).posted = s.posted ∧ (ringSetup s).foreign = s.foreign := by
  unfold ringSetup
  rcases h : allocRegions s with ⟨_ | ⟨t, r, q⟩, s1⟩ <;> cases congrArg Prod.snd h
  · simp
  simp only
  rcases k : postBuffers (allocRegions s).2.cfg.nRfd 0 (placeRings t r q (allocRegions s).2) with ⟨_ | _, s2⟩ <;>
    cases congrArg Prod.snd k <;> simp

@[simp] theorem txClear_frame (s : State) :
    (txClear s).cfg = s.cfg ∧ (txClear s).rx = s.rx ∧ (txClear s).pool = s.pool ∧ (txClear s).flags = s.flags ∧
    (txClear s).stats = s.stats ∧ (txClear s).wdt = s.wdt ∧ (txClear s).link = s.link ∧
    (txClear s).medium = s.medium ∧ (txClear s).intrMask = s.intrMask ∧ (txClear s).mac = s.mac ∧
    (txClear s).env = s.env ∧ (txClear s).frameArg = s.frameArg ∧ (txClear s).linkArg = s.linkArg ∧
    (txClear s).pending = s.pending ∧ (txClear s).result = s.result ∧ (txClear s).puller = s.puller ∧
    (txClear s).posted = s.posted ∧ (txClear s).foreign = s.foreign := by simp [txClear]

@[simp] theorem rxResetRings_frame (s : State) :
    (rxResetRings s).cfg = s.cfg ∧ (rxResetRings s).tx = s.tx ∧ (rxResetRings s).pool = s.pool ∧
    (rxResetRings s).flags = s.flags ∧ (rxResetRings s).stats = s.stats ∧ (rxResetRings s).wdt = s.wdt ∧
    (rxResetRings s).link = s.link ∧ (rxResetRings s).medium = s.medium ∧ (rxResetRings s).intrMask = s.intrMask ∧
    (rxResetRings s).mac = s.mac ∧ (rxResetRings s).env = s.env ∧ (rxResetRings s).frameArg = s.frameArg ∧
    (rxResetRings s).linkArg = s.linkArg ∧ (rxResetRings s).pending = s.pending ∧
    (rxResetRings s).result = s.result ∧ (rxResetRings s).trace = s.trace ∧ (rxResetRings s).puller = s.puller ∧
    (rxResetRings s).posted = s.posted ∧ (rxResetRings s).foreign = s.foreign := by simp [rxResetRings]

@[simp] theorem offerAll_frame (s : State) :
    (offerAll s).cfg = s.cfg ∧ (offerAll s).tx = s.tx ∧ (offerAll s).rx = s.rx ∧ (offerAll s).pool = s.pool ∧
    (offerAll s).flags = s.flags ∧ (offerAll s).stats = s.stats ∧ (offerAll s).wdt = s.wdt ∧
    (offerAll s).link = s.link ∧ (offerAll s).medium = s.medium ∧ (offerAll s).intrMask = s.intrMask ∧
    (offerAll s).mem = s.mem ∧ (offerAll s).env = s.env ∧ (offerAll s).frameArg = s.frameArg ∧
    (offerAll s).linkArg = s.linkArg ∧ (offerAll s).pending = s.pending ∧ (offerAll s).result = s.result ∧
    (offerAll s).puller = s.puller ∧ (offerAll s).foreign = s.foreign := by simp [offerAll]

@[simp] theorem ringTeardown_frame (s : State) :
    (ringTeardown s).cfg = s.cfg ∧ (ringTeardown s).stats = s.stats ∧ (ringTeardown s).wdt = s.wdt ∧
    (ringTeardown s).link = s.link ∧ (ringTeardown s).medium = s.medium ∧ (ringTeardown s).intrMask = s.intrMask ∧
    (ringTeardown s).mac = s.mac ∧ (ringTeardown s).frameArg = s.frameArg ∧ (ringTeardown s).linkArg = s.linkArg ∧
    (ringTeardown s).pending = s.pending ∧ (ringTeardown s).result = s.result ∧ (ringTeardown s).puller = s.puller ∧
    (ringTeardown s).posted = s.posted ∧ (ringTeardown s).foreign = s.foreign := by simp [ringTeardown]

@[simp] theorem haltMac_frame (s : State) :
    (haltMac s).cfg = s.cfg ∧ (haltMac s).tx = s.tx ∧ (haltMac s).rx = s.rx ∧ (haltMac s).pool = s.pool ∧
    (haltMac s).flags = s.flags ∧ (haltMac s).stats = s.stats ∧ (haltMac s).wdt = s.wdt ∧
    (haltMac s).link = s.link ∧ (haltMac s).medium = s.medium ∧ (haltMac s).intrMask = s.intrMask ∧
    (haltMac s).mem = s.mem ∧ (haltMac s).late = s.late ∧ (haltMac s).env = s.env ∧
    (haltMac s).frameArg = s.frameArg ∧ (haltMac s).linkArg = s.linkArg ∧ (haltMac s).pending = s.pending ∧
    (haltMac s).result = s.result ∧ (haltMac s).trace = s.trace ∧ (haltMac s).puller = s.puller ∧
    (haltMac s).posted = s.posted ∧ (haltMac s).foreign = s.foreign := by simp [haltMac]

@[simp] theorem wdtArm_frame (s : State) :
    (wdtArm s).cfg = s.cfg ∧ (wdtArm s).tx = s.tx ∧ (wdtArm s).rx = s.rx ∧ (wdtArm s).pool = s.pool ∧
    (wdtArm s).stats = s.stats ∧ (wdtArm s).link = s.link ∧ (wdtArm s).medium = s.medium ∧
    (wdtArm s).intrMask = s.intrMask ∧ (wdtArm s).mac = s.mac ∧ (wdtArm s).mem = s.mem ∧ (wdtArm s).late = s.late ∧
    (wdtArm s).env = s.env ∧ (wdtArm s).frameArg = s.frameArg ∧ (wdtArm s).linkArg = s.linkArg ∧
    (wdtArm s).pending = s.pending ∧ (wdtArm s).result = s.result ∧ (wdtArm s).trace = s.trace ∧
    (wdtArm s).puller = s.puller ∧ (wdtArm s).posted = s.posted ∧ (wdtArm s).foreign = s.foreign := by simp [wdtArm]

@[simp] theorem wdtCancel_frame (s : State) :
    (wdtCancel s).cfg = s.cfg ∧ (wdtCancel s).tx = s.tx ∧ (wdtCancel s).rx = s.rx ∧ (wdtCancel s).pool = s.pool ∧
    (wdtCancel s).stats = s.stats ∧ (wdtCancel s).wdt = s.wdt ∧ (wdtCancel s).link = s.link ∧
    (wdtCancel s).medium = s.medium ∧ (wdtCancel s).intrMask = s.intrMask ∧ (wdtCancel s).mac = s.mac ∧
    (wdtCancel s).mem = s.mem ∧ (wdtCancel s).late = s.late ∧ (wdtCancel s).env = s.env ∧
    (wdtCancel s).frameArg = s.frameArg ∧ (wdtCancel s).linkArg = s.linkArg ∧ (wdtCancel s).pending = s.pending ∧
    (wdtCancel s).result = s.result ∧ (wdtCancel s).trace = s.trace ∧ (wdtCancel s).puller = s.puller ∧
    (wdtCancel s).posted = s.posted ∧ (wdtCancel s).foreign = s.foreign := by simp [wdtCancel]

@[simp] theorem disableInterrupts_frame (s : State) :
    (disableInterrupts s).cfg = s.cfg ∧ (disableInterrupts s).tx = s.tx ∧ (disableInterrupts s).rx = s.rx ∧
    (disableInterrupts s).pool = s.pool ∧ (disableInterrupts s).flags = s.flags ∧
    (disableInterrupts s).stats = s.stats ∧ (disableInterrupts s).wdt = s.wdt ∧
    (disableInterrupts s).link = s.link ∧ (disableInterrupts s).medium = s.medium ∧
    (disableInterrupts s).mem = s.mem ∧ (disableInterrupts s).env = s.env ∧
    (disableInterrupts s).frameArg = s.frameArg ∧ (disableInterrupts s).linkArg = s.linkArg ∧
    (disableInterrupts s).pending = s.pending ∧ (disableInterrupts s).result = s.result ∧
    (disableInterrupts s).puller = s.puller ∧ (disableInterrupts s).foreign = s.foreign := by simp [disableInterrupts]

@[simp] theorem clearModeFlags_frame (s : State) :
    (clearModeFlags s).cfg = s.cfg ∧ (clearModeFlags s).tx = s.tx ∧ (clearModeFlags s).rx = s.rx ∧
    (clearModeFlags s).pool = s.pool ∧ (clearModeFlags s).stats = s.stats ∧ (clearModeFlags s).wdt = s.wdt ∧
    (clearModeFlags s).medium = s.medium ∧ (clearModeFlags s).intrMask = s.intrMask ∧
    (clearModeFlags s).mac = s.mac ∧ (clearModeFlags s).mem = s.mem ∧ (clearModeFlags s).late = s.late ∧
    (clearModeFlags s).env = s.env ∧ (clearModeFlags s).frameArg = s.frameArg ∧
    (clearModeFlags s).linkArg = s.linkArg ∧ (clearModeFlags s).pending = s.pending ∧
    (clearModeFlags s).result = s.result ∧ (clearModeFlags s).trace = s.trace ∧
    (clearModeFlags s).puller = s.puller ∧ (clearModeFlags s).posted = s.posted ∧
    (clearModeFlags s).foreign = s.foreign := by simp [clearModeFlags]

@[simp] theorem resetForDisable_frame (s : State) :
    (resetForDisable s).cfg = s.cfg ∧ (resetForDisable s).tx = s.tx ∧ (resetForDisable s).rx = s.rx ∧
    (resetForDisable s).pool = s.pool ∧ (resetForDisable s).flags = s.flags ∧ (resetForDisable s).wdt = s.wdt ∧
    (resetForDisable s).link = s.link ∧ (resetForDisable s).medium = s.medium ∧
    (resetForDisable s).intrMask = s.intrMask ∧ (resetForDisable s).mem = s.mem ∧
    (resetForDisable s).frameArg = s.frameArg ∧ (resetForDisable s).linkArg = s.linkArg ∧
    (resetForDisable s).pending = s.pending ∧ (resetForDisable s).result = s.result ∧
    (resetForDisable s).puller = s.puller ∧ (resetForDisable s).foreign = s.foreign := by
  unfold resetForDisable
  rcases h : hwCall .macReset s with ⟨_ | _, s1⟩ <;> cases congrArg Prod.snd h <;> simp

@[simp] theorem disableSteps_frame (s : State) :
    (disableSteps s).cfg = s.cfg ∧ (disableSteps s).wdt = s.wdt ∧ (disableSteps s).medium = s.medium ∧
    (disableSteps s).frameArg = s.frameArg ∧ (disableSteps s).linkArg = s.linkArg ∧
    (disableSteps s).pending = s.pending := by simp [disableSteps]

@[simp] theorem devDisable_frame (s : State) :
    (devDisable s).cfg = s.cfg ∧ (devDisable s).wdt = s.wdt ∧ (devDisable s).medium = s.medium ∧
    (devDisable s).frameArg = s.frameArg ∧ (devDisable s).linkArg = s.linkArg ∧ (devDisable s).pending = s.pending := by
  unfold devDisable
  split <;> simp

@[simp] theorem abortAdmin_frame (s : State) :
    (abortAdmin s).cfg = s.cfg ∧ (abortAdmin s).wdt = s.wdt ∧ (abortAdmin s).medium = s.medium ∧
    (abortAdmin s).frameArg = s.frameArg ∧ (abortAdmin s).linkArg = s.linkArg ∧ (abortAdmin s).pending = s.pending := by
  simp [abortAdmin]

@[simp] theorem enableDone_frame (s : State) :
    (enableDone s).cfg = s.cfg ∧ (enableDone s).tx = s.tx ∧ (enableDone s).rx = s.rx ∧
    (enableDone s).pool = s.pool ∧ (enableDone s).stats = s.stats ∧ (enableDone s).wdt = s.wdt ∧
    (enableDone s).medium = s.medium ∧ (enableDone s).mem = s.mem ∧ (enableDone s).env = s.env ∧
    (enableDone s).frameArg = s.frameArg ∧ (enableDone s).linkArg = s.linkArg ∧ (enableDone s).pending = s.pending ∧
    (enableDone s).puller = s.puller ∧ (enableDone s).foreign = s.foreign := by simp [enableDone]

@[simp] theorem enableAbort_frame (s : State) :
    (enableAbort s).cfg = s.cfg ∧ (enableAbort s).wdt = s.wdt ∧ (enableAbort s).link = s.link ∧
    (enableAbort s).medium = s.medium ∧ (enableAbort s).intrMask = s.intrMask ∧
    (enableAbort s).frameArg = s.frameArg ∧ (enableAbort s).linkArg = s.linkArg ∧
    (enableAbort s).pending = s.pending ∧ (enableAbort s).puller = s.puller ∧ (enableAbort s).foreign = s.foreign := by
  simp [enableAbort]

@[simp] theorem enableMac_frame (s : State) :
    (enableMac s).cfg = s.cfg ∧ (enableMac s).wdt = s.wdt ∧ (enableMac s).medium = s.medium ∧
    (enableMac s).frameArg = s.frameArg ∧ (enableMac s).linkArg = s.linkArg ∧ (enableMac s).pending = s.pending ∧
    (enableMac s).puller = s.puller ∧ (enableMac s).foreign = s.foreign := by
  unfold enableMac
  rcases h : hwCalls (enableCalls s) s with ⟨_ | _, s1⟩ <;> cases congrArg Prod.snd h <;> simp

@[simp] theorem devEnable_frame (s : State) :
    (devEnable s).cfg = s.cfg ∧ (devEnable s).wdt = s.wdt ∧ (devEnable s).medium = s.medium ∧
    (devEnable s).frameArg = s.frameArg ∧ (devEnable s).linkArg = s.linkArg ∧ (devEnable s).pending = s.pending ∧
    (devEnable s).puller = s.puller ∧ (devEnable s).foreign = s.foreign := by
  unfold devEnable
  split
  · simp
  · simp only
    split <;> simp

@[simp] theorem devReset_frame (s : State) :
    (devReset s).cfg = s.cfg ∧ (devReset s).wdt = s.wdt ∧ (devReset s).medium = s.medium ∧
    (devReset s).frameArg = s.frameArg ∧ (devReset s).linkArg = s.linkArg ∧ (devReset s).pending = s.pending := by
  unfold devReset devRestart
  simp only
  split <;> simp

@[simp] theorem linkUp_frame (p : Link) (s : State) :
    (linkUp p s).cfg = s.cfg ∧ (linkUp p s).medium = s.medium ∧ (linkUp p s).frameArg = s.frameArg ∧
    (linkUp p s).linkArg = s.linkArg ∧ (linkUp p s).pending = s.pending := by
  unfold linkUp
  rcases h : hwCall (.macStart (some p)) (s.setLink p) with ⟨_ | _, s1⟩ <;> cases congrArg Prod.snd h <;> simp

@[simp] theorem linkDownStop_frame (s : State) :
    (linkDownStop s).cfg = s.cfg ∧ (linkDownStop s).rx = s.rx ∧ (linkDownStop s).pool = s.pool ∧
    (linkDownStop s).wdt = s.wdt ∧ (linkDownStop s).link = s.link ∧ (linkDownStop s).medium = s.medium ∧
    (linkDownStop s).intrMask = s.intrMask ∧ (linkDownStop s).frameArg = s.frameArg ∧
    (linkDownStop s).linkArg = s.linkArg ∧ (linkDownStop s).pending = s.pending ∧ (linkDownStop s).result = s.result := by
  simp [linkDownStop]

@[simp] theorem linkDownClear_frame (s : State) :
    (linkDownClear s).cfg = s.cfg ∧ (linkDownClear s).pool = s.pool ∧ (linkDownClear s).flags = s.flags ∧
    (linkDownClear s).wdt = s.wdt ∧ (linkDownClear s).link = s.link ∧ (linkDownClear s).medium = s.medium ∧
    (linkDownClear s).frameArg = s.frameArg ∧ (linkDownClear s).linkArg = s.linkArg ∧
    (linkDownClear s).pending = s.pending ∧ (linkDownClear s).result = s.result := by simp [linkDownClear]

@[simp] theorem linkDown_frame (s : State) :
    (linkDown s).cfg = s.cfg ∧ (linkDown s).wdt = s.wdt ∧ (linkDown s).medium = s.medium ∧
    (linkDown s).frameArg = s.frameArg ∧ (linkDown s).linkArg = s.linkArg ∧ (linkDown s).pending = s.pending := by
  unfold linkDown
  rcases h : hwCall .macReset (linkDownStop s) with ⟨_ | _, s1⟩ <;> cases congrArg Prod.snd h
  · simp
  dsimp only
  rcases k : hwCalls (linkDownCalls (linkDownClear (hwCall .macReset (linkDownStop s)).2))
    (linkDownClear (hwCall .macReset (linkDownStop s)).2) with ⟨_ | _, s2⟩ <;> cases congrArg Prod.snd k <;> simp

@[simp] theorem advertise_frame (m : BitVec 5) (s : State) :
    (advertise m s).cfg = s.cfg ∧ (advertise m s).tx = s.tx ∧ (advertise m s).rx = s.rx ∧
    (advertise m s).pool = s.pool ∧ (advertise m s).flags = s.flags ∧ (advertise m s).wdt = s.wdt ∧
    (advertise m s).link = s.link ∧ (advertise m s).medium = s.medium ∧ (advertise m s).intrMask = s.intrMask ∧
    (advertise m s).mem = s.mem ∧ (advertise m s).late = s.late ∧ (advertise m s).frameArg = s.frameArg ∧
    (advertise m s).linkArg = s.linkArg ∧ (advertise m s).pending = s.pending ∧ (advertise m s).puller = s.puller ∧
    (advertise m s).posted = s.posted ∧ (advertise m s).foreign = s.foreign := by
  have hp := hwCall_posts (c := .setAdvertise m) (by simp) s
  unfold advertise
  rcases h : hwCall (.setAdvertise m) s with ⟨_ | _, s1⟩ <;> cases congrArg Prod.snd h <;> simp [hp]

@[simp] theorem reselect_frame (m : BitVec 5) (s : State) :
    (reselect m s).cfg = s.cfg ∧ (reselect m s).wdt = s.wdt ∧ (reselect m s).medium = s.medium ∧
    (reselect m s).frameArg = s.frameArg ∧ (reselect m s).linkArg = s.linkArg ∧ (reselect m s).pending = s.pending := by
  unfold reselect
  split
  · simp only
    split <;> simp
  · simp

@[simp] theorem mediumSelect_frame (m : BitVec 5) (s : State) :
    (mediumSelect m s).cfg = s.cfg ∧ (mediumSelect m s).wdt = s.wdt ∧ (mediumSelect m s).frameArg = s.frameArg ∧
    (mediumSelect m s).linkArg = s.linkArg ∧ (mediumSelect m s).pending = s.pending := by
  unfold mediumSelect refuseMedium
  split
  · simp only
    split <;> simp
  · simp

@[simp] theorem wdtTick_frame (s : State) :
    (wdtTick s).cfg = s.cfg ∧ (wdtTick s).medium = s.medium ∧ (wdtTick s).frameArg = s.frameArg ∧
    (wdtTick s).linkArg = s.linkArg ∧ (wdtTick s).pending = s.pending := by
  unfold wdtTick stalledTick
  split
  · split
    · simp only
      split <;> simp
    · simp
  · simp

@[simp] theorem refillCheck_frame (s : State) :
    (refillCheck s).cfg = s.cfg ∧ (refillCheck s).tx = s.tx ∧ (refillCheck s).rx = s.rx ∧
    (refillCheck s).flags = s.flags ∧ (refillCheck s).stats = s.stats ∧ (refillCheck s).wdt = s.wdt ∧
    (refillCheck s).link = s.link ∧ (refillCheck s).medium = s.medium ∧ (refillCheck s).intrMask = s.intrMask ∧
    (refillCheck s).mac = s.mac ∧ (refillCheck s).mem = s.mem ∧ (refillCheck s).late = s.late ∧
    (refillCheck s).env = s.env ∧ (refillCheck s).frameArg = s.frameArg ∧ (refillCheck s).linkArg = s.linkArg ∧
    (refillCheck s).pending = s.pending ∧ (refillCheck s).result = s.result ∧ (refillCheck s).puller = s.puller ∧
    (refillCheck s).posted = s.posted ∧ (refillCheck s).foreign = s.foreign := by
  unfold refillCheck
  split <;> simp

@[simp] theorem recycle_frame (k : Completion) (w : Word) (s : State) :
    (recycle k w s).cfg = s.cfg ∧ (recycle k w s).tx = s.tx ∧ (recycle k w s).pool = s.pool ∧
    (recycle k w s).flags = s.flags ∧ (recycle k w s).stats = s.stats ∧ (recycle k w s).wdt = s.wdt ∧
    (recycle k w s).link = s.link ∧ (recycle k w s).medium = s.medium ∧ (recycle k w s).intrMask = s.intrMask ∧
    (recycle k w s).env = s.env ∧ (recycle k w s).frameArg = s.frameArg ∧ (recycle k w s).linkArg = s.linkArg ∧
    (recycle k w s).pending = s.pending ∧ (recycle k w s).result = s.result ∧ (recycle k w s).puller = s.puller ∧
    (recycle k w s).foreign = s.foreign := by simp [recycle]

@[simp] theorem deliver_frame (k : Completion) (l : List Buf) (s : State) :
    (deliver k l s).cfg = s.cfg ∧ (deliver k l s).tx = s.tx ∧ (deliver k l s).rx = s.rx ∧
    (deliver k l s).pool = s.pool ∧ (deliver k l s).flags = s.flags ∧ (deliver k l s).wdt = s.wdt ∧
    (deliver k l s).link = s.link ∧ (deliver k l s).medium = s.medium ∧ (deliver k l s).intrMask = s.intrMask ∧
    (deliver k l s).mac = s.mac ∧ (deliver k l s).mem = s.mem ∧ (deliver k l s).late = s.late ∧
    (deliver k l s).env = s.env ∧ (deliver k l s).frameArg = s.frameArg ∧ (deliver k l s).linkArg = s.linkArg ∧
    (deliver k l s).pending = s.pending ∧ (deliver k l s).puller = s.puller ∧ (deliver k l s).posted = s.posted ∧
    (deliver k l s).foreign = s.foreign := by simp [deliver]

@[simp] theorem post_frame (i : Half) (b : Buf) (s : State) :
    (post i b s).cfg = s.cfg ∧ (post i b s).tx = s.tx ∧ (post i b s).pool = s.pool ∧ (post i b s).flags = s.flags ∧
    (post i b s).stats = s.stats ∧ (post i b s).wdt = s.wdt ∧ (post i b s).link = s.link ∧
    (post i b s).medium = s.medium ∧ (post i b s).intrMask = s.intrMask ∧ (post i b s).mac = s.mac ∧
    (post i b s).late = s.late ∧ (post i b s).env = s.env ∧ (post i b s).frameArg = s.frameArg ∧
    (post i b s).linkArg = s.linkArg ∧ (post i b s).pending = s.pending ∧ (post i b s).result = s.result ∧
    (post i b s).trace = s.trace ∧ (post i b s).puller = s.puller ∧ (post i b s).posted = s.posted ∧
    (post i b s).foreign = s.foreign := by simp [post]

@[simp] theorem copyInto_frame (c b : Buf) (d : Nat) (s : State) :
    (copyInto c b d s).cfg = s.cfg ∧ (copyInto c b d s).tx = s.tx ∧ (copyInto c b d s).rx = s.rx ∧
    (copyInto c b d s).pool = s.pool ∧ (copyInto c b d s).flags = s.flags ∧ (copyInto c b d s).stats = s.stats ∧
    (copyInto c b d s).wdt = s.wdt ∧ (copyInto c b d s).link = s.link ∧ (copyInto c b d s).medium = s.medium ∧
    (copyInto c b d s).intrMask = s.intrMask ∧ (copyInto c b d s).mac = s.mac ∧ (copyInto c b d s).late = s.late ∧
    (copyInto c b d s).env = s.env ∧ (copyInto c b d s).frameArg = s.frameArg ∧
    (copyInto c b d s).linkArg = s.linkArg ∧ (copyInto c b d s).pending = s.pending ∧
    (copyInto c b d s).result = s.result ∧ (copyInto c b d s).trace = s.trace ∧
    (copyInto c b d s).puller = s.puller ∧ (copyInto c b d s).posted = s.posted ∧
    (copyInto c b d s).foreign = s.foreign := by simp [copyInto]

@[simp] theorem acquireSpare_frame (i : Half) (d : Nat) (b : Buf) (s : State) :
    (acquireSpare i d b s).2.cfg = s.cfg ∧ (acquireSpare i d b s).2.tx = s.tx ∧
    (acquireSpare i d b s).2.flags = s.flags ∧ (acquireSpare i d b s).2.stats = s.stats ∧
    (acquireSpare i d b s).2.wdt = s.wdt ∧ (acquireSpare i d b s).2.link = s.link ∧
    (acquireSpare i d b s).2.medium = s.medium ∧ (acquireSpare i d b s).2.intrMask = s.intrMask ∧
    (acquireSpare i d b s).2.mac = s.mac ∧ (acquireSpare i d b s).2.late = s.late ∧
    (acquireSpare i d b s).2.env = s.env ∧ (acquireSpare i d b s).2.frameArg = s.frameArg ∧
    (acquireSpare i d b s).2.linkArg = s.linkArg ∧ (acquireSpare i d b s).2.pending = s.pending ∧
    (acquireSpare i d b s).2.result = s.result ∧ (acquireSpare i d b s).2.trace = s.trace ∧
    (acquireSpare i d b s).2.puller = s.puller ∧ (acquireSpare i d b s).2.posted = s.posted ∧
    (acquireSpare i d b s).2.foreign = s.foreign := by
  unfold acquireSpare
  split
  · simp
  · simp only
    split <;> simp

@[simp] theorem acquire_frame (i : Half) (d : Nat) (b : Buf) (s : State) :
    (acquire i d b s).2.cfg = s.cfg ∧ (acquire i d b s).2.tx = s.tx ∧ (acquire i d b s).2.flags = s.flags ∧
    (acquire i d b s).2.stats = s.stats ∧ (acquire i d b s).2.wdt = s.wdt ∧ (acquire i d b s).2.link = s.link ∧
    (acquire i d b s).2.medium = s.medium ∧ (acquire i d b s).2.intrMask = s.intrMask ∧
    (acquire i d b s).2.mac = s.mac ∧ (acquire i d b s).2.late = s.late ∧
    (acquire i d b s).2.frameArg = s.frameArg ∧ (acquire i d b s).2.linkArg = s.linkArg ∧
    (acquire i d b s).2.pending = s.pending ∧ (acquire i d b s).2.result = s.result ∧
    (acquire i d b s).2.trace = s.trace ∧ (acquire i d b s).2.puller = s.puller ∧
    (acquire i d b s).2.posted = s.posted ∧ (acquire i d b s).2.foreign = s.foreign := by
  unfold acquire
  rcases h : rxBufAlloc s with ⟨_ | r, s1⟩ <;> cases congrArg Prod.snd h <;> dsimp only
  · rcases k : bufAlloc false d (rxBufAlloc s).2 with ⟨_ | c, s2⟩ <;> cases congrArg Prod.snd k <;> simp
  · simp

end Sys2Proof.Machine
end

