-- ==== Sys2Proof/Laws/Memory.lean ====
section
/-! SUPPORT. Host memory: every operation on it keeps the canonical form, and what one byte reads as after each. -/

namespace Sys2Proof.Machine

/-! ### The canonical form -/

theorem Memory.wf_cons {c : Host.Cell} {m : Memory} :
    Memory.wf (c :: m) = true ↔ c.1 < 2 ^ 64 ∧ c.2 ≠ unlistedByte ∧ aboveFirst c.1 m = true ∧ Memory.wf m = true := by
  simp [Memory.wf, and_assoc]

theorem aboveFirst_mono {j k : Nat} {m : Memory} (h : j ≤ k) (hk : aboveFirst k m = true) : aboveFirst j m = true := by
  cases m with
  | nil => rfl
  | cons c m => simp only [aboveFirst, decide_eq_true_eq] at *; omega

theorem consCell_wf {m : Memory} {k : Nat} {v : Byte} (hm : Memory.wf m = true) (hk : k < 2 ^ 64)
    (ha : aboveFirst k m = true) : Memory.wf (consCell k v m) = true := by
  unfold consCell
  split
  · exact hm
  · exact Memory.wf_cons.2 ⟨hk, by assumption, ha, hm⟩

theorem aboveFirst_consCell {m : Memory} {j k : Nat} {v : Byte} (hj : j < k) (ha : aboveFirst j m = true) :
    aboveFirst j (consCell k v m) = true := by
  unfold consCell
  split
  · exact ha
  · simp [aboveFirst, hj]

theorem aboveFirst_putCell {m : Memory} {j k : Nat} {v : Byte} (hj : j < k) (hm : Memory.wf m = true)
    (ha : aboveFirst j m = true) : aboveFirst j (putCell m k v) = true := by
  cases m with
  | nil => exact aboveFirst_consCell hj ha
  | cons c m =>
    obtain ⟨_, _, hc, _⟩ := Memory.wf_cons.1 hm
    have hjc : j < c.1 := by simpa [aboveFirst] using ha
    unfold putCell
    split
    · exact aboveFirst_consCell hj ha
    · split
      · exact aboveFirst_consCell hj (aboveFirst_mono (Nat.le_of_lt hjc) hc)
      · simpa [aboveFirst] using hjc

/-- Putting a byte keeps the canonical form. -/
theorem putCell_wf {m : Memory} {k : Nat} {v : Byte} (hm : Memory.wf m = true) (hk : k < 2 ^ 64) :
    Memory.wf (putCell m k v) = true := by
  induction m with
  | nil => exact consCell_wf hm hk rfl
  | cons c m ih =>
    obtain ⟨h1, h2, h3, h4⟩ := Memory.wf_cons.1 hm
    unfold putCell
    split
    · exact consCell_wf hm hk (by simpa [aboveFirst])
    · split
      · rename_i h; subst h; exact consCell_wf h4 hk h3
      · exact Memory.wf_cons.2 ⟨h1, h2, aboveFirst_putCell (by omega) h4 h3, ih h4⟩

theorem writeByte_wf {m : Memory} (a : Addr) (v : Byte) (hm : Memory.wf m = true) : Memory.wf (writeByte m a v) = true :=
  putCell_wf hm a.isLt

theorem store16_wf {m : Memory} (a : Addr) (v : Half) (hm : Memory.wf m = true) : Memory.wf (store16 m a v) = true :=
  writeByte_wf _ _ (writeByte_wf _ _ hm)

theorem store32_wf {m : Memory} (a : Addr) (v : Word) (hm : Memory.wf m = true) : Memory.wf (store32 m a v) = true :=
  store16_wf _ _ (store16_wf _ _ hm)

theorem store64_wf {m : Memory} (a : Addr) (v : BitVec 64) (hm : Memory.wf m = true) :
    Memory.wf (store64 m a v) = true :=
  store32_wf _ _ (store32_wf _ _ hm)

theorem writeBytes_wf {m : Memory} (a : Addr) (l : List Byte) (hm : Memory.wf m = true) :
    Memory.wf (writeBytes m a l) = true := by
  induction l generalizing m a with
  | nil => exact hm
  | cons b l ih => exact ih _ (writeByte_wf a b hm)

theorem memCopy_wf {m : Memory} (d a : Addr) (n : Nat) (hm : Memory.wf m = true) : Memory.wf (memCopy m d a n) = true :=
  writeBytes_wf _ _ hm

theorem aboveFirst_filter {m : Memory} {k : Nat} (p : Host.Cell → Bool) (hm : Memory.wf m = true)
    (ha : aboveFirst k m = true) : aboveFirst k (m.filter p) = true := by
  induction m with
  | nil => rfl
  | cons c m ih =>
    obtain ⟨_, _, h3, h4⟩ := Memory.wf_cons.1 hm
    have hk : k < c.1 := by simpa [aboveFirst] using ha
    rw [List.filter_cons]
    split
    · simpa [aboveFirst] using hk
    · exact ih h4 (aboveFirst_mono (Nat.le_of_lt hk) h3)

/-- Zeroing a region keeps the canonical form. -/
theorem zeroRange_wf {m : Memory} (base : Addr) (n : Nat) (hm : Memory.wf m = true) :
    Memory.wf (zeroRange m base n) = true := by
  unfold zeroRange
  induction m with
  | nil => rfl
  | cons c m ih =>
    obtain ⟨h1, h2, h3, h4⟩ := Memory.wf_cons.1 hm
    rw [List.filter_cons]
    split
    · exact Memory.wf_cons.2 ⟨h1, h2, aboveFirst_filter _ h4 h3, ih h4⟩
    · exact ih h4

theorem writeTpdHead_wf {m : Memory} (l : Layout) (a : Addr) (len vt : Half) (cmd : Word) (hm : Memory.wf m = true) :
    Memory.wf (writeTpdHead l m a len vt cmd) = true :=
  store32_wf _ _ (store16_wf _ _ (store16_wf _ _ hm))

theorem writeData_wf {m : Memory} (l : Layout) (a : Addr) (len vt : Half) (cmd : Word) (addr : Addr) (hm : Memory.wf m = true) :
    Memory.wf (writeData l m a len vt cmd addr) = true :=
  store64_wf _ _ (writeTpdHead_wf _ _ _ _ _ hm)

theorem writeContext_wf {m : Memory} (l : Layout) (a : Addr) (vt : Half) (cmd total : Word) (hm : Memory.wf m = true) :
    Memory.wf (writeContext l m a vt cmd total) = true :=
  store32_wf _ _ (store32_wf _ _ (writeTpdHead_wf _ _ _ _ _ hm))

theorem writeCompletion_wf {m : Memory} (c : Cfg) (a : Addr) (len n : Nat) (start : Half) (info : RxMeta)
    (hm : Memory.wf m = true) : Memory.wf (writeCompletion c m a len n start info) = true :=
  store32_wf _ _ (store32_wf _ _ (store32_wf _ _ (store32_wf _ _ (store32_wf _ _ hm))))

theorem macFill_wf {ring m : Memory} (c : Cfg) (k : MacConf) (n : Nat) (slot : Half) (bytes : List Byte)
    (hm : Memory.wf m = true) : Memory.wf (macFill c ring k n slot bytes m) = true := by
  induction n generalizing slot bytes m with
  | zero => exact hm
  | succ n ih => exact ih _ _ (writeBytes_wf _ _ hm)

/-- A completion stored keeps the canonical form. -/
theorem complete_wf {s : State} (n k : Nat) (info : RxMeta) (hm : Memory.wf s.mem = true) :
    Memory.wf (complete n k info s).mem = true := by
  simp only [complete]
  split
  · simpa only [State.setLate_mem] using hm
  · simpa only [State.setMem_mem] using writeCompletion_wf _ _ _ _ _ _ hm

/-- A receive step of the MAC keeps the canonical form. -/
theorem macRxOne_wf {s : State} (bytes : List Byte) (info : RxMeta) (hm : Memory.wf s.mem = true) :
    Memory.wf (macRxOne bytes info s).mem = true := by
  simp only [macRxOne, State.setMac_mem]
  exact complete_wf _ _ _ (by simpa only [State.setMem_mem] using macFill_wf _ _ _ _ _ hm)

theorem netWrite16_wf {m m1 : Memory} {segs : List Seg} {off : Nat} {v : Half} (hm : Memory.wf m = true)
    (h : netWrite16 m segs off v = some m1) : Memory.wf m1 = true := by
  unfold netWrite16 at h
  split at h
  · cases h; exact writeByte_wf _ _ (writeByte_wf _ _ hm)
  · cases h

theorem tso4Fix_wf {m m1 : Memory} {segs : List Seg} (hm : Memory.wf m = true) (h : tso4Fix m segs = some m1) :
    Memory.wf m1 = true := by
  unfold tso4Fix at h
  split at h
  · split at h
    · exact netWrite16_wf hm h
    · cases h
  · cases h

theorem tso6Fix_wf {c : Cfg} {m m1 : Memory} {segs : List Seg} {t : Word} (hm : Memory.wf m = true)
    (h : tso6Fix c m segs = some (m1, t)) : Memory.wf m1 = true := by
  unfold tso6Fix at h
  split at h
  · split at h
    · split at h
      · cases h
        exact netWrite16_wf (netWrite16_wf hm (by assumption)) (by assumption)
      · cases h
    · cases h
  · cases h

/-- Free values stored keep the canonical form. -/
theorem storeFree_wf (n : Nat) {m : Memory} (l : List Addr) (hm : Memory.wf m = true) : Memory.wf (storeFree n m l) = true := by
  induction l generalizing n m with
  | nil => exact hm
  | cons a l ih => exact ih _ (writeByte_wf a _ hm)

/-- A header fix-up keeps the canonical form. -/
theorem headerFix_wf {c : Cfg} {mode : TsoMode} {m m1 : Memory} {segs : List Seg} {ctx : Option Word}
    (hm : Memory.wf m = true) (h : headerFix c mode m segs = some (m1, ctx)) : Memory.wf m1 = true := by
  cases mode with
  | none => cases h; exact hm
  | tso4 =>
    simp only [headerFix] at h
    split at h
    · cases h; exact tso4Fix_wf hm (by assumption)
    · cases h
  | tso6 =>
    simp only [headerFix] at h
    split at h
    · cases h; exact tso6Fix_wf hm (by assumption)
    · cases h

/-- Memory with nothing listed, the memory of `State.reset`, has the canonical form. -/
theorem reset_mem_wf : Memory.wf State.reset.mem = true := rfl

/-! ### Reading a byte back -/

theorem readByte_below {m : Memory} {a : Addr} (hm : Memory.wf m = true) (ha : aboveFirst a.toNat m = true) :
    readByte m a = unlistedByte := by
  induction m with
  | nil => rfl
  | cons c m ih =>
    obtain ⟨_, _, h3, h4⟩ := Memory.wf_cons.1 hm
    have hk : a.toNat < c.1 := by simpa [aboveFirst] using ha
    simp only [readByte, if_neg (Nat.ne_of_gt hk)]
    exact ih h4 (aboveFirst_mono (Nat.le_of_lt hk) h3)

theorem readByte_consCell {m : Memory} {k : Nat} {v : Byte} (a : Addr) (hm : Memory.wf m = true)
    (hk : aboveFirst k m = true) : readByte (consCell k v m) a = if a.toNat = k then v else readByte m a := by
  unfold consCell
  split
  · split
    · rename_i h1 h2; subst h1 h2; exact readByte_below hm hk
    · rfl
  · simp only [readByte, eq_comm]

/-- Putting a byte changes what its own address reads as, and no other. -/
theorem readByte_putCell {m : Memory} {k : Nat} {v : Byte} (a : Addr) (hm : Memory.wf m = true) :
    readByte (putCell m k v) a = if a.toNat = k then v else readByte m a := by
  induction m with
  | nil => exact readByte_consCell a hm rfl
  | cons c m ih =>
    obtain ⟨_, _, h3, h4⟩ := Memory.wf_cons.1 hm
    unfold putCell
    split
    · rw [readByte_consCell a hm (by simpa [aboveFirst])]
    · split
      · rename_i h
        subst h
        rw [readByte_consCell a h4 h3]
        by_cases h : a.toNat = c.1
        · simp [h]
        · simp [h, readByte, Ne.symm h]
      · simp only [readByte]
        rw [ih h4]
        by_cases h : c.1 = a.toNat
        · simp [h]; omega
        · simp [h]

/-- A byte written reads back, and every other byte reads as before. -/
theorem readByte_writeByte {m : Memory} (a b : Addr) (v : Byte) (hm : Memory.wf m = true) :
    readByte (writeByte m a v) b = if b = a then v else readByte m b := by
  unfold writeByte
  rw [readByte_putCell b hm]
  simp [BitVec.toNat_inj]

/-- Free values stored change what the bytes they are stored to read as, and no other. -/
theorem readByte_storeFree (n : Nat) {m : Memory} {l : List Addr} {a : Addr} (hm : Memory.wf m = true) (ha : a ∉ l) :
    readByte (storeFree n m l) a = readByte m a := by
  induction l generalizing n m with
  | nil => rfl
  | cons b l ih =>
    rw [List.mem_cons, not_or] at ha
    rw [storeFree, ih _ (writeByte_wf b _ hm) ha.2, readByte_writeByte _ _ _ hm, if_neg ha.1]

/-- The header is stored as the fix-up leaves it but for the bytes that are not the frame's own; with none of these it is stored
as the fix-up leaves it. -/
theorem storeHeader_mem {mode : TsoMode} {segs : List Seg} {m : Memory} {s : State} (hm : Memory.wf m = true) :
    Memory.wf (storeHeader mode segs m s).mem = true ∧
      (∀ a, a ∉ foreignHeader s mode segs → readByte (storeHeader mode segs m s).mem a = readByte m a) ∧
      (foreignHeader s mode segs = [] → storeHeader mode segs m s = s.setMem m) := by
  refine ⟨?_, fun a ha => ?_, fun h => ?_⟩
  · simpa [storeHeader] using storeFree_wf _ _ hm
  · simpa [storeHeader] using readByte_storeFree _ hm ha
  · simp [storeHeader, h, storeFree, State.setMem, State.setForeign]

@[simp] theorem storeHeader_foreign (mode : TsoMode) (segs : List Seg) (m : Memory) (s : State) :
    (storeHeader mode segs m s).foreign = s.foreign + (foreignHeader s mode segs).length := rfl

/-- A zeroed region reads 0, and every other byte reads as before. -/
theorem readByte_zeroRange {m : Memory} (base : Addr) (n : Nat) (a : Addr) (hm : Memory.wf m = true) :
    readByte (zeroRange m base n) a = if inRange base n a then 0#8 else readByte m a := by
  unfold zeroRange
  induction m with
  | nil => simp [readByte, unlistedByte]
  | cons c m ih =>
    obtain ⟨h1, _, _, h4⟩ := Memory.wf_cons.1 hm
    rw [List.filter_cons]
    by_cases hc : c.1 = a.toNat
    · have hca : BitVec.ofNat 64 c.1 = a := by simp [hc]
      rw [hca]
      by_cases hr : inRange base n a = true
      · simp [hr]; rw [ih h4]; simp [hr]
      · simp [hr, readByte, hc]
    · split
      · simp only [readByte, if_neg hc]; exact ih h4
      · simp only [readByte, if_neg hc]; exact ih h4

end Sys2Proof.Machine
end

