-- ==== Sys2Proof/Laws/Ops.lean ====
section
/-! SUPPORT. For a shared operation that has cases, one lemma that says once everything it can do; for one that loops, the
induction over its turns. Proofs cite these and unfold nothing. -/

namespace Sys2Proof.Machine

/-- Two states with equal fields are equal. -/
theorem State.eq_of_fields {s t : State} (h1 : s.cfg = t.cfg) (h2 : s.tx = t.tx) (h3 : s.rx = t.rx) (h4 : s.pool = t.pool)
    (h5 : s.flags = t.flags) (h6 : s.stats = t.stats) (h7 : s.wdt = t.wdt) (h8 : s.link = t.link)
    (h9 : s.medium = t.medium) (h10 : s.intrMask = t.intrMask) (h11 : s.mac = t.mac) (h12 : s.mem = t.mem)
    (h13 : s.env = t.env) (h14 : s.frameArg = t.frameArg) (h15 : s.linkArg = t.linkArg) (h16 : s.pending = t.pending)
    (h17 : s.result = t.result) (h18 : s.trace = t.trace) (h19 : s.late = t.late) (h20 : s.puller = t.puller)
    (h21 : s.posted = t.posted) (h22 : s.foreign = t.foreign) :
    s = t := by
  cases s; cases t; simp_all

/-! ### Outcomes and ring indices -/

theorem andThen_eq_next {α β : Type} {o : Host.Outcome α Fault Refusal} {f : α → Host.Outcome β Fault Refusal} {t : β} :
    andThen o f = .next t ↔ ∃ s, o = .next s ∧ f s = .next t := by
  cases o <;> simp [andThen]

@[simp] theorem andThen_next {α β : Type} (s : α) (f : α → Host.Outcome β Fault Refusal) :
    andThen (.next s) f = f s := rfl

theorem inc_lt {i : Half} {k n : Nat} (h : 0 < n) : (inc i k n).toNat < n := by
  have h1 : (i.toNat + k) &&& (n - 1) ≤ n - 1 := Nat.and_le_right
  have h2 : (inc i k n).toNat ≤ (i.toNat + k) &&& (n - 1) := by
    simp only [inc, BitVec.toNat_ofNat]
    exact Nat.mod_le _ _
  omega

theorem dist_lt {a b : Half} {n : Nat} (h : 0 < n) : dist a b n < n := by
  have h1 : dist a b n ≤ n - 1 := Nat.and_le_right
  omega

/-! ### The environment's calls -/

/-- What an allocator gives no one else depends on the environment by what it has given out. -/
theorem takenRegions_setEnv (s : State) (e : Env) : takenRegions (s.setEnv e) = e.live ++ sentRegions s := rfl

/-- Settling answers changes nothing of it. -/
theorem takenRegions_answers {s : State} {e : Env} (h : e.live = s.env.live) : takenRegions (s.setEnv e) = takenRegions s := by
  rw [takenRegions_setEnv, h, takenRegions]

/-- A hardware call answers `OK` with its effect, or times out; either way one answer is taken from the environment. -/
theorem hwCall_cases (c : HwCall) (s : State) :
    ∃ e : Env, e = { s.env with hw := e.hw, draws := e.draws } ∧
      (hwCall c s = (true, (((beforeCall c s).setEnv e).setMac (hwEffect c s.mac)).emit (.hw c true)) ∨
        ∃ d, hwCall c s = (false, (((beforeCall c s).setEnv e).setMac (hwTimeout c d s.mac)).emit (.hw c false))) := by
  unfold hwCall nextHw
  simp only [beforeCall_frame]
  cases hh : s.env.hw with
  | nil =>
    refine ⟨drawn s.env, by simp [drawn], ?_⟩
    cases Config.hwAnswer s.env.draws with
    | ok => exact .inl (by simp)
    | timeout d => exact .inr ⟨d, by simp⟩
  | cons a rest =>
    refine ⟨{ s.env with hw := rest }, rfl, ?_⟩
    cases a with
    | ok => exact .inl (by simp)
    | timeout d => exact .inr ⟨d, by simp⟩

theorem hwCall_ok {c : HwCall} {s : State} {rest : List HwAnswer} (h : s.env.hw = .ok :: rest) :
    hwCall c s =
      (true, (((beforeCall c s).setEnv { s.env with hw := rest }).setMac (hwEffect c s.mac)).emit (.hw c true)) := by
  simp [hwCall, nextHw, h]

theorem hwCall_timeout {c : HwCall} {s : State} {d : DeviceRegs} {rest : List HwAnswer}
    (h : s.env.hw = .timeout d :: rest) :
    hwCall c s =
      (false, (((beforeCall c s).setEnv { s.env with hw := rest }).setMac (hwTimeout c d s.mac)).emit (.hw c false)) := by
  simp [hwCall, nextHw, h]

/-- Only a reset of the MAC waits for the doorbell writes that are posted. -/
theorem beforeCall_other {c : HwCall} (h : c ≠ .macReset) (s : State) : beforeCall c s = s := by
  cases c <;> simp_all [beforeCall]

theorem nextAlloc_eq (s : State) :
    ∃ e : Env, e = { s.env with alloc := e.alloc, draws := e.draws } ∧ (nextAlloc s).2 = s.setEnv e := by
  unfold nextAlloc
  cases s.env.alloc with
  | nil => exact ⟨drawn s.env, by simp [drawn], rfl⟩
  | cons a rest => exact ⟨{ s.env with alloc := rest }, rfl, rfl⟩

/-- `BufAlloc` takes an answer from the environment and gives none, or the new buffer of an answer it can give. -/
theorem bufAlloc_cases (z : Bool) (n : Nat) (s : State) :
    ∃ e : Env, e = { s.env with alloc := e.alloc, draws := e.draws } ∧
      (bufAlloc z n s = (none, s.setEnv e) ∨
        ∃ a, bufAnswerFits z n a s = true ∧ bufAlloc z n s = (some (newBuf n a s), takeBuf n a (s.setEnv e))) := by
  obtain ⟨e, he, hs⟩ := nextAlloc_eq s
  refine ⟨e, he, ?_⟩
  unfold bufAlloc
  rcases h : nextAlloc s with ⟨_ | a, s1⟩
  · rw [h] at hs
    cases hs
    exact .inl rfl
  · rw [h] at hs
    cases hs
    have hl : e.live = s.env.live := by rw [he]
    have hn : e.nextBuf = s.env.nextBuf := by rw [he]
    have hf : bufAnswerFits z n a (s.setEnv e) = bufAnswerFits z n a s := by
      simp [bufAnswerFits, takenRegions_answers hl]
    have hb : newBuf n a (s.setEnv e) = newBuf n a s := by simp [newBuf, hn]
    dsimp only
    split
    · rename_i hfit
      exact .inr ⟨a, hf ▸ hfit, congrArg (fun b => (some b, takeBuf n a (s.setEnv e))) hb⟩
    · exact .inl rfl

theorem bufAlloc_none {z : Bool} {n : Nat} {s : State} {rest : List (Option BufAnswer)}
    (h : s.env.alloc = none :: rest) : bufAlloc z n s = (none, s.setEnv { s.env with alloc := rest }) := by
  simp [bufAlloc, nextAlloc, h]

theorem bufAlloc_some {z : Bool} {n : Nat} {s : State} {a : BufAnswer} {rest : List (Option BufAnswer)}
    (h : s.env.alloc = some a :: rest) (hf : bufAnswerFits z n a s = true) :
    bufAlloc z n s = (some (newBuf n a s), takeBuf n a (s.setEnv { s.env with alloc := rest })) := by
  have hf1 : bufAnswerFits z n a (s.setEnv { s.env with alloc := rest }) = true := hf
  simp [bufAlloc, nextAlloc, h, hf1, newBuf]

/-- `DmaAlloc` takes an answer from the environment and gives none, or a free region of the size asked. -/
theorem dmaAlloc_cases (n : Nat) (s : State) :
    ∃ e : Env, e = { s.env with dma := e.dma, draws := e.draws } ∧
      (dmaAlloc n s = (none, s.setEnv e) ∨
        ∃ p, freeAmong s.cfg.ringAlign (takenRegions s) { base := p, size := n } = true ∧
          dmaAlloc n s = (some p, takeRegion { base := p, size := n } (s.setEnv e))) := by
  have key : ∃ e : Env, e = { s.env with dma := e.dma, draws := e.draws } ∧ (nextDma s).2 = s.setEnv e := by
    unfold nextDma
    cases s.env.dma with
    | nil => exact ⟨drawn s.env, by simp [drawn], rfl⟩
    | cons a rest => exact ⟨{ s.env with dma := rest }, rfl, rfl⟩
  obtain ⟨e, he, hs⟩ := key
  refine ⟨e, he, ?_⟩
  unfold dmaAlloc
  rcases h : nextDma s with ⟨_ | p, s1⟩
  · rw [h] at hs
    cases hs
    exact .inl rfl
  · rw [h] at hs
    obtain rfl : s1 = s.setEnv e := hs
    have hl : e.live = s.env.live := by rw [he]
    have ht : takenRegions (s.setEnv e) = takenRegions s := takenRegions_answers hl
    dsimp only [State.setEnv_cfg]
    rw [ht]
    by_cases hfit : freeAmong s.cfg.ringAlign (takenRegions s) { base := p, size := n } = true
    · exact .inr ⟨p, hfit, if_pos hfit⟩
    · exact .inl (if_neg hfit)

/-! ### Regions -/

/-- Regions that are apart share no byte. -/
theorem apart_not_inRange {p q : Region} {x : Addr} (h : apart p q = true) (hx : inRange p.base p.size x = true) :
    inRange q.base q.size x = false := by
  simp only [apart, inRange, Bool.and_eq_true, Bool.not_eq_true', decide_eq_false_iff_not, decide_eq_true_eq, Nat.not_lt,
    BitVec.toNat_sub] at *
  have := x.isLt; have := p.base.isLt; have := q.base.isLt
  omega

theorem apart_comm (p q : Region) : apart p q = apart q p := by simp [apart, Bool.and_comm]

/-! ### Stores the MAC sees late -/

/-- With no store late the MAC sees what the core sees. -/
@[simp] theorem macView_nil {s : State} (h : s.late = []) : macView s = s.mem := by simp [macView, h]

/-- A write of a register that is no doorbell leaves the posted ones as they are. -/
@[simp] theorem postReg_isr (s : State) : postReg .isr s = s := rfl

@[simp] theorem postReg_imr (s : State) : postReg .imr s = s := rfl

@[simp] theorem lateAfter_nil (n : Nat) : lateAfter n [] = [] := rfl

@[simp] theorem fenced_nil (k : Nat) : fenced k [] = [] := rfl

/-- No doorbell write, and nothing arrives. -/
@[simp] theorem lateAfter_zero (l : List LateStore) : lateAfter 0 l = l := by
  have h : afterBells 0 = some := by
    funext e
    obtain ⟨b, v, _ | k⟩ := e <;> simp [afterBells]
  simp [lateAfter, h]

/-- Doorbell writes that arrive one after another leave what they leave together. -/
theorem lateAfter_lateAfter (m n : Nat) (l : List LateStore) : lateAfter m (lateAfter n l) = lateAfter (n + m) l := by
  simp only [lateAfter, List.filterMap_filterMap]
  refine List.filterMap_congr fun e _ => ?_
  obtain ⟨b, v, _ | k⟩ := e
  · simp [afterBells]
  · by_cases h : k < n
    · simp [afterBells, h, show k < n + m by omega]
    · by_cases h2 : k < n + m
      · simp [afterBells, h, h2, show k - n < m by omega]
      · simp [afterBells, h, h2, show ¬k - n < m by omega, show k - n - m = k - (n + m) by omega]

/-- With the first doorbell write behind a fence every store before the fence has reached the MAC (20_memory.md R89). -/
theorem lateAfter_fenced {k : Nat} {l : List LateStore} (h : ∀ e ∈ l, ∀ j, e.due = some j → j ≤ k) :
    lateAfter (k + 1) (fenced k l) = [] := by
  simp only [lateAfter, fenced, List.filterMap_map, List.filterMap_eq_nil_iff]
  intro e he
  obtain ⟨b, v, _ | j⟩ := e
  · simp [afterBells]
  · have := h _ he j rfl
    simp [afterBells, show j < k + 1 by omega]

/-- A completion underneath late stores keeps where they are to. -/
theorem underOldest_base (m : Memory) (a : Addr) (l : List LateStore) :
    (underOldest m a l).map LateStore.base = l.map LateStore.base := by
  induction l with
  | nil => rfl
  | cons e rest ih => simp only [underOldest, List.map_cons, ih]; split <;> rfl

/-- What arrives of the stores to a region leaves the others in their order. -/
theorem dropOldest_sublist (r : Region) (l : List LateStore) : (dropOldest r l).Sublist l := by
  induction l with
  | nil => exact .slnil
  | cons e rest ih =>
    unfold dropOldest
    split
    · exact ih.cons e
    · exact ih.cons_cons e

/-- A completion is stored in memory, or only where the MAC sees it while the zeroing of its descriptor is late. -/
theorem complete_cases (n k : Nat) (i : RxMeta) (s : State) :
    (isLate (macRrdAddr s) s = false ∧
      complete n k i s = s.setMem (writeCompletion s.cfg s.mem (macRrdAddr s) n k s.mac.regs.rfdCons i)) ∨
    (isLate (macRrdAddr s) s = true ∧ ∃ l, l.map LateStore.base = s.late.map LateStore.base ∧
      complete n k i s = s.setLate l) := by
  unfold complete
  cases h : isLate (macRrdAddr s) s with
  | false => exact .inl ⟨rfl, if_neg (by simp [h])⟩
  | true => exact .inr ⟨rfl, _, underOldest_base _ _ _, if_pos h⟩

/-! ### Releases: the record grows, and regions are given back -/


theorem releaseAll_eq (l : List Frame) (s : State) :
    releaseAll l s = { s with trace := (l.map (Act.release · false)).reverse ++ s.trace } := by
  induction l generalizing s with
  | nil => rfl
  | cons f rest ih => simp [releaseAll, ih, releaseFrame, State.emit]

theorem freeAll_eq (l : List Buf) (s : State) :
    freeAll l s = { s with
      env := { s.env with live := s.env.live.diff (l.map bufRegion) },
      trace := (l.map Act.bufFree).reverse ++ s.trace } := by
  induction l generalizing s with
  | nil => rfl
  | cons f rest ih => simp [freeAll, ih, bufFree, dropRegion, State.emit, State.setEnv]

/-! ### Transmit -/

/-- Everything an enqueue can do: the gate drop, the resource drop, the stall, or the published frame. -/
theorem enqueue_cases {m : TsoMode} {room : Bool} {f : Frame} {s t : State} (h : enqueue m room f s = .next t) :
    frameProblem s.cfg m f = none ∧
    ((gateOpen s = false ∧ t = dropFrame .txDropGate .droppedGate f s) ∨
      (gateOpen s = true ∧ (sgMap s f = none ∨ sgMap s f = some []) ∧
        t = dropFrame .txResource .droppedResource f s) ∨
      ∃ segs, gateOpen s = true ∧ sgMap s f = some segs ∧ segs ≠ [] ∧
        ((room = true ∧ lacksRoom (descNeed m segs) s = true ∧ t = stallFrame f s) ∨
          ((room = true → lacksRoom (descNeed m segs) s = false) ∧ aligned8 s.tx.ringPhys = true ∧
            ∃ m1 ctx, headerFix s.cfg m s.mem segs = some (m1, ctx) ∧
              t = fillPublish f segs ctx (storeHeader m segs m1 (addFree (-BitVec.ofNat 32 (descNeed m segs)) s))))) := by
  unfold enqueue at h
  split at h
  · cases h
  · rename_i hp
    refine ⟨hp, ?_⟩
    split at h
    · rename_i hg
      cases h
      exact .inl ⟨by simpa using hg, rfl⟩
    · rename_i hg
      have hg' : gateOpen s = true := by simpa using hg
      split at h
      · rename_i hs
        cases h
        exact .inr (.inl ⟨hg', .inl hs, rfl⟩)
      · rename_i hs
        cases h
        exact .inr (.inl ⟨hg', .inr hs, rfl⟩)
      · rename_i g rest hs
        refine .inr (.inr ⟨g :: rest, hg', hs, by simp, ?_⟩)
        simp only at h
        split at h
        · rename_i hr
          cases h
          simp only [Bool.and_eq_true] at hr
          exact .inl ⟨hr.1, hr.2, rfl⟩
        · rename_i hr
          refine .inr ⟨fun hroom => by simpa [hroom] using hr, ?_⟩
          unfold enqueueReserved at h
          split at h
          · rename_i ha
            refine ⟨by simpa [addFree] using ha, ?_⟩
            split at h
            · cases h
            · rename_i m1 ctx hf
              cases h
              exact ⟨m1, ctx, by simpa [addFree] using hf, rfl⟩
          · cases h

/-- A reclaim that answers walks to the hardware consumer index and may wake the queue. -/
theorem reclaimIfEnabled_cases {s t : State} (h : reclaimIfEnabled s = .next t) :
    (s.flags.enabled = false ∧ t = refuse s) ∨
      (s.flags.enabled = true ∧ consumerInside s = true ∧
        t = reclaimTo (hwConsumer s) s) := by
  unfold reclaimIfEnabled reclaim at h
  split at h
  · rename_i he
    split at h
    · rename_i hc
      cases h
      exact .inr ⟨he, hc, rfl⟩
    · cases h
  · rename_i he
    cases h
    exact .inl ⟨by simpa using he, rfl⟩

/-- What every reclaimed slot and every interleaving point keep, the walk keeps. -/
theorem reclaimMany_keeps {P : State → Prop} (h : ∀ s, P s → P (reclaimOne s)) (hm : ∀ s, P s → P (macPoint s)) (n : Nat)
    {s : State} (hs : P s) : P (reclaimMany n s) := by
  induction n generalizing s with
  | zero => exact hs
  | succ n ih => exact ih (hm _ (h s hs))

/-! ### Receive -/

/-- Everything `acquire` can do: a new buffer swapped in, a copy into a small one, a spare, or the loss of the frame. -/
theorem acquire_cases (i : Half) (d : Nat) (b : Buf) (s : State) :
    ∃ e : Env, e = { s.env with alloc := e.alloc, draws := e.draws } ∧
      ((∃ a, bufAnswerFits true s.cfg.rxBufSize a s = true ∧
          acquire i d b s = (some { b with len := d },
            post i (newBuf s.cfg.rxBufSize a s) (takeBuf s.cfg.rxBufSize a (s.setEnv e)))) ∨
        (∃ a, bufAnswerFits false d a s = true ∧
          acquire i d b s = (some { newBuf d a s with len := d },
            copyInto (newBuf d a s) b d (takeBuf d a (s.setEnv e)))) ∨
        acquire i d b s = acquireSpare i d b (s.setEnv e)) := by
  unfold acquire rxBufAlloc
  obtain ⟨e1, h1, ha | ⟨a, hf, ha⟩⟩ := bufAlloc_cases true s.cfg.rxBufSize s
  · rw [ha]
    have hl : e1.live = s.env.live := by rw [h1]
    have hn : e1.nextBuf = s.env.nextBuf := by rw [h1]
    obtain ⟨e2, h2, hb | ⟨a, hf, hb⟩⟩ := bufAlloc_cases false d (s.setEnv e1)
    · refine ⟨e2, ?_, .inr (.inr ?_)⟩
      · rw [h2, State.setEnv_env, h1]
      · simp only [hb]
        rfl
    · refine ⟨e2, ?_, .inr (.inl ⟨a, ?_, ?_⟩)⟩
      · rw [h2, State.setEnv_env, h1]
      · simpa [bufAnswerFits, takenRegions_answers hl] using hf
      · simp only [hb, newBuf, State.setEnv_env, hn]
        rfl
  · rw [ha]
    exact ⟨e1, h1, .inl ⟨a, hf, rfl⟩⟩

/-- The receive walk: what an interleaving point and a processed completion keep, the loop keeps. -/
theorem drainLoop_keeps {P : State → Prop} (hm : ∀ s, P s → P (macPoint s))
    (ho : ∀ s t, P s → drainOne s = .next t → P t) (n : Nat) {s t : State} (hs : P s)
    (h : drainLoop n s = .next t) : P t := by
  induction n generalizing s with
  | zero => cases h; exact hs
  | succ n ih =>
    simp only [drainLoop] at h
    split at h
    · obtain ⟨s1, h1, h2⟩ := andThen_eq_next.1 h
      exact ih (ho _ _ (hm _ hs) h1) h2
    · cases h
      exact hm _ hs

/-- A processed completion: dropped with its event, delivered, or lost for lack of a buffer, and then recycled. -/
theorem drainOne_cases {s t : State} (h : drainOne s = .next t) :
    contractProblem (rrdCompletion s) s = none ∧
    ∃ s1, t = recycle (rrdCompletion s) (rrdFlagWord s) s1 ∧
      (s1 = raise .rxLength s ∨ s1 = raise .rxError s ∨
        (fits (rrdCompletion s) s.cfg = true ∧
          ((∃ l s2, assemble (rrdCompletion s).start (rrdCompletion s).count ((rrdCompletion s).len - s.cfg.crcLen) s =
              .chain l s2 ∧ s1 = deliver (rrdCompletion s) l s2) ∨
            ∃ s2, assemble (rrdCompletion s).start (rrdCompletion s).count ((rrdCompletion s).len - s.cfg.crcLen) s =
              .lost s2 ∧ s1 = raise .rxResource s2))) := by
  unfold drainOne at h
  split at h
  · cases h
  · rename_i hp
    refine ⟨hp, ?_⟩
    obtain ⟨s1, h1, h2⟩ := andThen_eq_next.1 h
    cases h2
    refine ⟨s1, rfl, ?_⟩
    unfold judge at h1
    split at h1
    · cases h1; exact .inl rfl
    · split at h1
      · cases h1; exact .inr (.inl rfl)
      · split at h1
        · rename_i hf
          refine .inr (.inr ⟨hf, ?_⟩)
          split at h1
          · rename_i l s2 ha
            cases h1
            exact .inl ⟨l, s2, ha, rfl⟩
          · rename_i s2 ha
            cases h1
            exact .inr ⟨s2, ha, rfl⟩
          · cases h1
        · cases h1

/-! ### The PULLER (41_transmit.md R177) -/

/-- Everything one access of a `TX.PULL` can do: nothing, the counter read, the stall flagged, the queue found empty, a frame
dequeued, or the frame sent with the result left to the serialized context. -/
theorem pullStep_cases {s t : State} (h : pullStep s = .next t) :
    (s.puller = .idle ∧ t = s) ∨ (s.puller = .looping ∧ t = s.setPuller (.saw s.tx.numFree)) ∨
      (∃ free, s.puller = .saw free ∧
        ((belowReserve free s.cfg = true ∧ t = (s.setTx { s.tx with stalled := true }).setPuller .idle) ∨
          (belowReserve free s.cfg = false ∧
            ((s.env.outbound = [] ∧ t = s.setPuller .idle) ∨
              ∃ f rest, s.env.outbound = f :: rest ∧
                t = (s.setEnv { s.env with outbound := rest }).setPuller (.holds f))))) ∨
      ∃ f u, s.puller = .holds f ∧ txSend false f s = .next u ∧ t = (u.setResult s.result).setPuller .looping := by
  unfold pullStep at h
  split at h
  · rename_i hp; cases h; exact .inl ⟨hp, rfl⟩
  · rename_i hp; cases h; exact .inr (.inl ⟨hp, rfl⟩)
  · rename_i free hp
    cases h
    refine .inr (.inr (.inl ⟨free, hp, ?_⟩))
    cases hb : belowReserve free s.cfg with
    | true => exact .inl ⟨rfl, rfl⟩
    | false =>
      refine .inr ⟨rfl, ?_⟩
      unfold pullNext dequeueOutbound
      cases s.env.outbound with
      | nil => exact .inl ⟨rfl, rfl⟩
      | cons f rest => exact .inr ⟨f, rest, rfl, rfl⟩
  · rename_i f hp
    obtain ⟨u, hu, ht⟩ := andThen_eq_next.1 h
    cases ht
    exact .inr (.inr (.inr ⟨f, u, hp, hu, rfl⟩))

/-- A step of the PULLER agent: nothing, a `TX.PULL` begun, or an access of the one in progress. -/
theorem pullTurn_cases {s t : State} (h : pullTurn s = .next t) :
    t = s ∨ (s.cfg.txSched = .pull ∧
      ((s.puller = .idle ∧ pullDue s = true ∧ t = beginPull s) ∨ (s.puller ≠ .idle ∧ pullStep s = .next t))) := by
  unfold pullTurn at h
  split at h
  · cases h; exact .inl rfl
  · rename_i hc
    split at h
    · rename_i hp
      exact .inr ⟨hc, .inr ⟨by simpa [pulling] using hp, h⟩⟩
    · rename_i hp
      cases h
      cases hd : pullDue s with
      | true => exact .inr ⟨hc, .inl ⟨by simpa [pulling] using hp, rfl, rfl⟩⟩
      | false => exact .inl rfl

/-- A step of the PULLER inside another operation is a step of the PULLER, or none. -/
theorem pullInside_cases (s : State) : pullInside s = s ∨ pullTurn s = .next (pullInside s) := by
  unfold pullInside
  split
  · rename_i t h; exact .inr h
  · exact .inl rfl
  · exact .inl rfl

/-! ### Other agents -/

/-- Everything a step of another agent inside an operation can be. -/
theorem midStep_cases (m : MidStep) (s : State) :
    midStep m s = s ∨ (∃ a, midStep m s = macStep a s) ∨ pullTurn s = .next (midStep m s) ∨
      (∃ f, midStep m s = offerFrame f s) ∨ (∃ a l, midStep m s = hostWrite a l s) ∨ ∃ r, midStep m s = bufReturn r s := by
  cases m with
  | mac a => exact .inr (.inl ⟨a, rfl⟩)
  | pull => exact (pullInside_cases s).imp id fun h => .inr (.inl h)
  | offer f => exact .inr (.inr (.inr (.inl ⟨f, rfl⟩)))
  | hostWrite a l => exact .inr (.inr (.inr (.inr (.inl ⟨a, l, rfl⟩))))
  | bufReturn r => exact .inr (.inr (.inr (.inr (.inr ⟨r, rfl⟩))))

/-- What the steps of other agents keep, an interleaving point keeps. -/
theorem macSteps_keeps {P : State → Prop} (h : ∀ m s, P s → P (midStep m s)) (l : List MidStep) {s : State} (hs : P s) :
    P (macSteps l s) := by
  induction l generalizing s with
  | nil => exact hs
  | cons m rest ih => exact ih (h m s hs)

/-- The same, with what the point takes off the schedule of other agents. -/
theorem macPoint_keeps {P : State → Prop} (hd : ∀ s, P s → P (dropPoint s)) (h : ∀ m s, P s → P (midStep m s)) {s : State}
    (hs : P s) : P (macPoint s) := macSteps_keeps h _ (hd s hs)

/-- What an interleaving point and the release of a frame off the queue keep, the flush keeps. -/
theorem flushLoop_keeps {P : State → Prop} (hm : ∀ s, P s → P (macPoint s))
    (hd : ∀ f rest s, P s → s.env.outbound = f :: rest →
      P (releaseFrame f false (s.setEnv { s.env with outbound := rest }))) (n : Nat) {s : State} (hs : P s) :
    P (flushLoop n s) := by
  induction n generalizing s with
  | zero => exact hs
  | succ n ih =>
    unfold flushLoop dequeueOutbound
    cases h : s.env.outbound with
    | nil => exact hs
    | cons f rest => exact ih (hm _ (hd f rest s hs h))

/-- What an interleaving point and an access of `TX.PULL` keep, the rest of a `TX.PULL` keeps. -/
theorem pullRun_keeps {P : State → Prop} (hm : ∀ s, P s → P (macPoint s)) (hp : ∀ s t, P s → pullStep s = .next t → P t)
    (n : Nat) {s t : State} (hs : P s) (h : pullRun n s = .next t) : P t := by
  induction n generalizing s with
  | zero => cases h; exact hs
  | succ n ih =>
    unfold pullRun at h
    split at h
    · obtain ⟨u, hu, ht⟩ := andThen_eq_next.1 h
      exact ih (hp _ _ (hm _ hs) hu) ht
    · cases h; exact hs

/-! ### A `TX.PULL` and a flush end -/

/-- How far a `TX.PULL` is from its next turn. -/
def phaseWeight : PullPhase → Nat
  | .idle => 0
  | .saw _ => 1
  | .looping => 2
  | .holds _ => 3

/-- What a `TX.PULL` has left to do: three accesses for each frame there is or will be, and those of its turn. -/
def pullWork (s : State) : Nat := 3 * (s.env.outbound.length + pendingSteps s) + phaseWeight s.puller

theorem phaseWeight_le (p : PullPhase) : phaseWeight p ≤ 3 := by cases p <;> simp [phaseWeight]

/-- An access of a `TX.PULL` in progress leaves less to do. -/
theorem pullStep_work {s t : State} (h : pullStep s = .next t) :
    t.env.during = s.env.during ∧ t.env.outbound.length ≤ s.env.outbound.length ∧ pullWork t ≤ pullWork s ∧
      (s.puller ≠ .idle → pullWork t < pullWork s) := by
  rcases pullStep_cases h with ⟨hp, rfl⟩ | ⟨hp, rfl⟩ | ⟨free, hp, ⟨-, rfl⟩ | ⟨-, ⟨-, rfl⟩ | ⟨f, rest, hq, rfl⟩⟩⟩ |
    ⟨f, u, hp, hu, rfl⟩
  · simp [hp]
  · simp [pullWork, pendingSteps, phaseWeight, hp]
  · simp [pullWork, pendingSteps, phaseWeight, hp]
  · simp [pullWork, pendingSteps, phaseWeight, hp]
  · simp [pullWork, pendingSteps, phaseWeight, hp, hq]
    omega
  · have he := (enqueue_frame hu).2.2.2.2.2.2.2.2.1
    simp [pullWork, pendingSteps, phaseWeight, hp, he]

/-- A step of another agent inside an operation adds no more than one frame, or one turn of the PULLER. -/
theorem midStep_work (m : MidStep) (s : State) :
    (midStep m s).env.during = s.env.during ∧ (midStep m s).env.outbound.length ≤ s.env.outbound.length + 1 ∧
      pullWork (midStep m s) ≤ pullWork s + 3 := by
  rcases midStep_cases m s with h | ⟨a, h⟩ | h | ⟨f, h⟩ | ⟨a, l, h⟩ | ⟨r, h⟩
  · simp [h]
  · simp [h, pullWork, pendingSteps]
  · rcases pullTurn_cases h with h | ⟨-, ⟨hp, -, h⟩ | ⟨-, h⟩⟩
    · simp [h]
    · simp [h, beginPull, pullWork, pendingSteps, phaseWeight, hp]
    · obtain ⟨h1, h2, h3, -⟩ := pullStep_work h
      exact ⟨h1, by omega, by omega⟩
  · simp [h, pullWork, pendingSteps, offerFrame]
    omega
  · simp [h, pullWork, pendingSteps]
  · rw [h, bufReturn]
    split <;> simp [pullWork, pendingSteps, dropRegion]

/-- The steps at one point add no more than that each. -/
theorem macSteps_work (l : List MidStep) (s : State) :
    (macSteps l s).env.during = s.env.during ∧ (macSteps l s).env.outbound.length ≤ s.env.outbound.length + l.length ∧
      pullWork (macSteps l s) ≤ pullWork s + 3 * l.length := by
  induction l generalizing s with
  | nil => simp [macSteps]
  | cons m rest ih =>
    obtain ⟨h1, h2, h3⟩ := midStep_work m s
    obtain ⟨i1, i2, i3⟩ := ih (midStep m s)
    simp only [macSteps, List.length_cons]
    exact ⟨i1.trans h1, by omega, by omega⟩

/-- An interleaving point leaves no more to do than there was. -/
theorem macPoint_work (s : State) :
    (macPoint s).env.outbound.length + pendingSteps (macPoint s) ≤ s.env.outbound.length + pendingSteps s ∧
      pullWork (macPoint s) ≤ pullWork s := by
  obtain ⟨h1, h2, h3⟩ := macSteps_work (s.env.during.headD []) (dropPoint s)
  have hd : pendingSteps (dropPoint s) + (s.env.during.headD []).length = pendingSteps s := by
    cases h : s.env.during with
    | nil => simp [pendingSteps, dropPoint, h]
    | cons l rest => simp [pendingSteps, dropPoint, h]; omega
  have ho : (dropPoint s).env.outbound = s.env.outbound := rfl
  have hp : pendingSteps (macPoint s) = pendingSteps (dropPoint s) := congrArg (fun l => (l.map List.length).sum) h1
  have hw : pullWork (dropPoint s) + 3 * (s.env.during.headD []).length = pullWork s := by
    simp only [pullWork, ho, show (dropPoint s).puller = s.puller from rfl]
    omega
  rw [ho] at h2
  exact ⟨by rw [hp]; simp only [macPoint]; omega, by simp only [macPoint]; omega⟩

/-- What is run of a `TX.PULL` in progress is all of it. -/
theorem finishPull_idle {s t : State} (h : finishPull s = .next t) : t.puller = .idle := by
  have run : ∀ n (s : State), pullWork s < n → ∀ t, pullRun n s = .next t → t.puller = .idle := by
    intro n
    induction n with
    | zero => intro s hs; omega
    | succ n ih =>
      intro s hs t h
      unfold pullRun at h
      split at h
      · obtain ⟨u, hu, ht⟩ := andThen_eq_next.1 h
        have hm := (macPoint_work s).2
        obtain ⟨-, -, h3, h4⟩ := pullStep_work hu
        by_cases hi : (macPoint s).puller = .idle
        · rcases pullStep_cases hu with ⟨-, rfl⟩ | ⟨hp, -⟩ | ⟨free, hp, -⟩ | ⟨f, v, hp, -⟩
          · cases n with
            | zero => cases ht; exact hi
            | succ n =>
              unfold pullRun at ht
              simp only [pulling, hi, bne_self_eq_false, Bool.false_eq_true, if_false] at ht
              cases ht
              exact hi
          · simp [hi] at hp
          · simp [hi] at hp
          · simp [hi] at hp
        · exact ih u (by have := h4 hi; omega) t ht
      · rename_i hp
        cases h
        simpa [pulling] using hp
  refine run _ s ?_ t h
  have := phaseWeight_le s.puller
  simp only [pullWork, pullFuel]
  omega

/-- A flush leaves the queue empty (60_exceptions.md R258). -/
theorem flushOutbound_empty (s : State) : (flushOutbound s).env.outbound = [] := by
  have run : ∀ n (s : State), s.env.outbound.length + pendingSteps s ≤ n → (flushLoop n s).env.outbound = [] := by
    intro n
    induction n with
    | zero =>
      intro s hs
      simpa [flushLoop] using (show s.env.outbound.length = 0 by omega)
    | succ n ih =>
      intro s hs
      unfold flushLoop dequeueOutbound
      cases h : s.env.outbound with
      | nil => simpa using h
      | cons f rest =>
        refine ih _ (le_trans (macPoint_work _).1 ?_)
        simp [releaseFrame, pendingSteps, h] at hs ⊢
        omega
  exact run _ s le_rfl

/-! ### One step -/

/-- What one step can be: an event taken off the schedule, an automatic operation, the rest of a `TX.PULL`, or the idle
machine. -/
theorem step_cases {s t : State} (h : step s = .next t) :
    s.cfg.valid = true ∧
    ((∃ e rest, s.pending = e :: rest ∧ runEvent e (s.setPending rest) = .next t) ∨
      (s.pending = [] ∧
        (t = s ∨ finishPull s = .next t ∨
          ∃ i, (i = .irqDispatch ∨ i = .poolRefill ∨ i = .txPull) ∧ exec i s = .next t))) := by
  unfold step at h
  split at h
  · rename_i hv
    refine ⟨hv, ?_⟩
    unfold runNext at h
    split at h
    · rename_i hp
      refine .inr ⟨hp, ?_⟩
      unfold runIdle at h
      split at h
      · exact .inr (.inr ⟨_, .inl rfl, h⟩)
      · split at h
        · exact .inr (.inr ⟨_, .inr (.inl rfl), h⟩)
        · split at h
          · exact .inr (.inl h)
          · split at h
            · exact .inr (.inr ⟨_, .inr (.inr rfl), h⟩)
            · cases h; exact .inl rfl
    · rename_i e rest hp
      exact .inl ⟨e, rest, hp, h⟩
  · cases h

/-- A request is executed if its word decodes, and refused if not. -/
theorem runRequest_cases {r : Request} {s t : State} (h : runRequest r s = .next t) :
    (∃ i, decode r.word = .ok i ∧ exec i (s.setArgs r.frame r.link) = .next t) ∨
      ∃ e, decode r.word = .error e ∧ t = refuseWord e (s.setArgs r.frame r.link) := by
  unfold runRequest at h
  split at h
  · rename_i i hi
    exact .inl ⟨i, hi, h⟩
  · rename_i e he
    cases h
    exact .inr ⟨e, he, rfl⟩

/-- With no step of another agent scheduled, an interleaving point changes nothing (00_scope.md R17). -/
theorem macPoint_of_during_nil {s : State} (h : s.env.during = []) : macPoint s = s := by
  obtain ⟨_, _, _, _, _, _, _, _, _, _, _, _, _, _, _, _, e, _, _, _, _, _⟩ := s
  cases e
  cases h
  rfl

/-- A dispatch after its entry write and its log (60_exceptions.md R249, R253). -/
theorem logAlert_dispatchEntry {s : State} (h : s.env.during = []) :
    logAlert s.mac.regs.isr (dispatchEntry s) = { s with
      mac := { s.mac with regs := { s.mac.regs with
        isr := isrWrite s.cfg.isr.dis s.mac.regs.isr (s.mac.regs.isr ||| s.cfg.isr.dis) } },
      trace := (if s.mac.regs.isr &&& s.cfg.isr.alert = 0#32 then [] else [.log .alert]) ++
        .regWrite s.cfg.regmap.isr.offset s.cfg.regmap.isr.width (s.mac.regs.isr ||| s.cfg.isr.dis) :: s.trace } := by
  unfold logAlert hasBit
  by_cases ha : s.mac.regs.isr &&& s.cfg.isr.alert = 0#32 <;>
    simp [ha, dispatchEntry, macPoint_of_during_nil h, regWrite, log, regRead, regInfo, regStore, State.setMac, State.emit]

end Sys2Proof.Machine
end

