-- ==== Sys2Proof/Laws/PerInstr.lean ====
section
/-! SUPPORT. The family of statements made once per operation: the two fields of its operation word (30_encoding.md R130,
R131). -/

namespace Sys2Proof.Laws

/-- The word of an operation holds its number in `OPW[7:0]` and its operand in `OPW[31:8]`. -/
def WordFields.Statement (i : Instr) : Prop := opwOpcode (encode i) = i.opcode ∧ opwImm (encode i) = i.imm

/-- The fields of a word put together from its two fields. -/
theorem fields_append (a : BitVec 24) (b : BitVec 8) : opwOpcode (a ++ b) = b ∧ opwImm (a ++ b) = a := by
  constructor
  · unfold opwOpcode
    ext i hi
    rw [BitVec.getElem_extractLsb', Nat.zero_add]
    exact (BitVec.getLsbD_append (x := a) (y := b)).trans (by simp [hi])
  · unfold opwImm
    ext i hi
    rw [BitVec.getElem_extractLsb']
    exact (BitVec.getLsbD_append (x := a) (y := b)).trans (by simp [hi])

theorem WordFields.ringSetup : WordFields.Statement .ringSetup := fields_append _ _
theorem WordFields.ringTeardown : WordFields.Statement .ringTeardown := fields_append _ _
theorem WordFields.txClear : WordFields.Statement .txClear := fields_append _ _
theorem WordFields.rxReset : WordFields.Statement .rxReset := fields_append _ _
theorem WordFields.txqPlain : WordFields.Statement .txqPlain := fields_append _ _
theorem WordFields.txqTso4 : WordFields.Statement .txqTso4 := fields_append _ _
theorem WordFields.txqTso6 : WordFields.Statement .txqTso6 := fields_append _ _
theorem WordFields.txPull : WordFields.Statement .txPull := fields_append _ _
theorem WordFields.txReclaim : WordFields.Statement .txReclaim := fields_append _ _

theorem WordFields.rxDrain (budget : BitVec 24) : WordFields.Statement (.rxDrain budget) := fields_append _ _
theorem WordFields.poolRefill : WordFields.Statement .poolRefill := fields_append _ _
theorem WordFields.irqDispatch : WordFields.Statement .irqDispatch := fields_append _ _
theorem WordFields.pollService (budget : BitVec 24) : WordFields.Statement (.pollService budget) := fields_append _ _
theorem WordFields.pollMode (on : Bool) : WordFields.Statement (.pollMode on) := fields_append _ _
theorem WordFields.wdtTick : WordFields.Statement .wdtTick := fields_append _ _
theorem WordFields.linkUp : WordFields.Statement .linkUp := fields_append _ _
theorem WordFields.linkDown : WordFields.Statement .linkDown := fields_append _ _
theorem WordFields.devReset : WordFields.Statement .devReset := fields_append _ _
theorem WordFields.devEnable : WordFields.Statement .devEnable := fields_append _ _
theorem WordFields.devDisable : WordFields.Statement .devDisable := fields_append _ _
theorem WordFields.mediumSelect (medium : BitVec 5) : WordFields.Statement (.mediumSelect medium) := fields_append _ _

end Sys2Proof.Laws
end

