-- ==== Sys2Proof/Tests/Slice0.lean ====
section
/-! SUPPORT. The model's own tests. `test_` theorems check one step or one operation against a value that 95_test_vectors.md
states or that is worked out by hand from the rule named; `witness_` theorems show a state that meets the hypotheses of a
statement of Obligations.lean, at a boundary value where its clauses have a range. -/

open Sys2Proof Sys2Proof.Machine

namespace Slice0

/-! ### Small machines -/

/-- A small usable configuration without reassembly. -/
def tiny : Cfg :=
  { Cfg.default with
    nTx := 32, nRrd := 2, nRfd := 2, maxSegs := 2, txSafetyMargin := 3, pullReserve := 4, jumboSupport := false,
    rxBufSize := 16, spareCap := 1, spareLowWater := 1, wdtStallThreshold := 2 }

/-- The same with reassembly. -/
def jumbo : Cfg := { tiny with nRfd := 16, jumboSupport := true }

/-- The same, scheduled by pulling. -/
def puller : Cfg := { tiny with txSched := .pull }

/-- The buffer posted at slot `i` of a fresh machine, as in `B[i]` of 95_test_vectors.md. -/
def buf (c : Cfg) (i : Nat) : Buf :=
  { id := i, cap := c.rxBufSize, phys := BitVec.ofNat 64 (0x8000 + 64 * i), len := 0, next := none }

/-- Disabled, with rings. -/
def rings (c : Cfg) : State :=
  { State.reset with
    cfg := c
    tx := { TxSide.powerOn with
      ringPhys := 0x1000#64, numFree := BitVec.ofNat 32 c.nTx, mbuf := List.replicate c.nTx none }
    rx := { RxSide.powerOn with
      rrdPhys := 0x4000#64, rfdPhys := 0x5000#64, mbuf := (List.range c.nRfd).map fun i => some (buf c i) }
    pool := { spare := [buf c c.nRfd], refillPending := false }
    flags := { State.reset.flags with ringsUp := true }
    env := { Env.empty with
      nextBuf := c.nRfd + 1
      live := ringsAt c 0x1000#64 0x4000#64 0x5000#64 ++ (List.range (c.nRfd + 1)).map fun i => bufRegion (buf c i) } }

/-- Enabled with the link down. -/
def down (c : Cfg) : State :=
  { rings c with
    flags := { (rings c).flags with enabled := true }
    intrMask := imrDown c
    mac := { started := true, startedWith := none, conf := macConf (rings c), advertised := 0#5,
             regs := freshRegs c (imrDown c) } }

/-- `(1000, full, 1, 1)`. -/
def gigabit : Link := { speed := .s1000, duplex := .full, flowControl := 3#2, eee := false }

/-- Enabled with the link up. -/
def up (c : Cfg) : State :=
  { down c with
    flags := { (down c).flags with linkUp := true, wdtArmed := true }
    link := gigabit
    intrMask := imrFull c
    mac := { (down c).mac with regs := freshRegs c (imrFull c) } }

/-- A buffer answered at an address, of the size asked, with nothing stored in it. -/
def bufAt (p : Addr) : BufAnswer := { phys := p, extra := 0, fill := [] }

/-- The same machine with the answers of the environment settled. -/
def answers (alloc dma : List (Option Addr)) (hw : List HwAnswer) (s : State) : State :=
  { s with env := { s.env with alloc := alloc.map (Option.map bufAt), dma := dma, hw := hw } }

/-- A frame of one segment of 64 bytes. -/
def frame64 (m : TsoMode) : Frame :=
  { id := 1, tsoMode := m, mss := 1400#16, csumReq := 0#5, vlan := none, segs := some [⟨0x12345000#64, 64#16⟩] }

/-- A request for the word `w`. -/
def request (w : Word) : Request := { word := w, frame := emptyFrame, link := gigabit }

/-- What `f` sees after the operation, if it answers. -/
def see {α : Type} (i : Instr) (s : State) (f : State → α) : Option α :=
  match exec i s with
  | .next t => some (f t)
  | _ => none

/-- Words of a completion descriptor at slot 0 of the completion ring. -/
def withCompletion (w0 w2 w3 : Word) (s : State) : State :=
  { s with mem := store32 (store32 (store32 s.mem 0x4000#64 w0) 0x4008#64 w2) 0x400C#64 w3 }

/-! ### WellFormed: what each check refuses -/

theorem test_wf_medium_gigabit_half : Instr.wf (.mediumSelect 0x03#5) = false := by decide
theorem test_wf_medium_gigabit_full : Instr.wf (.mediumSelect 0x0F#5) = true := by decide
theorem test_wf_link_gigabit_half : Link.valid { gigabit with duplex := .half } = false := by decide
theorem test_wf_link_unknown : Link.valid Link.down = false := by decide
theorem test_wf_cfg_default : Cfg.valid Cfg.default = true := by decide
theorem test_wf_cfg_small : tiny.valid = true ∧ jumbo.valid = true ∧ puller.valid = true := by decide
theorem test_wf_rings_power : Cfg.ringsValid { Cfg.default with nTx := 257 } = false := by decide
theorem test_wf_rings_zero : Cfg.ringsValid { Cfg.default with nRrd := 0 } = false := by decide
theorem test_wf_rings_rfd_bound : Cfg.ringsValid { Cfg.default with nRfd := 8192 } = false := by decide
theorem test_wf_rings_jumbo : Cfg.ringsValid { Cfg.default with nRfd := 8 } = false := by decide
theorem test_wf_room_margin : Cfg.roomValid { Cfg.default with txSafetyMargin := 2 } = false := by decide
theorem test_wf_room_reserve : Cfg.roomValid { Cfg.default with pullReserve := 41 } = false := by decide
theorem test_wf_room_segments : Cfg.roomValid { Cfg.default with maxSegs := 0 } = false := by decide
theorem test_wf_room_push : Cfg.roomValid { Cfg.default with nTx := 128 } = false := by decide
theorem test_wf_pool_size : Cfg.poolValid { Cfg.default with rxBufSize := 0 } = false := by decide
theorem test_wf_pool_low_water : Cfg.poolValid { Cfg.default with spareLowWater := 5 } = false := by decide
theorem test_wf_pool_watchdog : Cfg.poolValid { Cfg.default with wdtStallThreshold := 0 } = false := by decide
theorem test_wf_pool_align : Cfg.poolValid { Cfg.default with ringAlign := 4 } = false := by decide
theorem test_wf_regmap_width :
    RegMap.valid { RegMap.default with isr := { offset := 0x1600, width := 16 } } = false := by decide
theorem test_wf_regmap_place :
    RegMap.valid { RegMap.default with imr := { offset := 0x1602, width := 32 } } = false := by decide
theorem test_wf_regmap_shared :
    RegMap.valid { RegMap.default with imr := { offset := 0x1600, width := 32 } } = false := by decide

theorem test_wf_pool_buf_align : Cfg.poolValid { Cfg.default with bufAlign := 0 } = false := by decide
/-- An offset that is not naturally aligned, a field outside its descriptor, two fields that share a byte. -/
theorem test_wf_layout_bytes :
    Layout.placesValid Layout.default = true ∧ Layout.placesValid { Layout.default with tpdCmd := 6 } = false ∧
    Layout.placesValid { Layout.default with rrdW3 := 16 } = false ∧
    Layout.placesValid { Layout.default with tpdVlan := 0 } = false := by decide
/-- A bit outside its word, and two fields that share a bit. -/
theorem test_wf_layout_bits :
    Layout.placesValid { Layout.default with updated := 32 } = false ∧
    Layout.placesValid { Layout.default with eop := 30 } = false := by decide
/-- Fields too narrow for the values they carry. -/
theorem test_wf_layout_widths :
    Cfg.layoutValid { Cfg.default with layout := { Layout.default with nor := { lo := 16, width := 3 } } } = false ∧
    Cfg.layoutValid { Cfg.default with layout := { Layout.default with si := { lo := 20, width := 3 } } } = false ∧
    Cfg.layoutValid { Cfg.default with minL4OffV6 := 256 } = false := by decide

/-! ### Decode: words of 95_test_vectors.md W1 to W32 -/

theorem test_decode_ringSetup : decodeTableWord 32 0x00000001 = some .ringSetup := by decide
theorem test_decode_ringTeardown : decodeTableWord 32 0x00000002 = some .ringTeardown := by decide
theorem test_decode_txClear : decodeTableWord 32 0x00000003 = some .txClear := by decide
theorem test_decode_rxReset : decodeTableWord 32 0x00000004 = some .rxReset := by decide
theorem test_decode_txqPlain : decodeTableWord 32 0x00000010 = some .txqPlain := by decide
theorem test_decode_txqTso4 : decodeTableWord 32 0x00000011 = some .txqTso4 := by decide
theorem test_decode_txqTso6 : decodeTableWord 32 0x00000012 = some .txqTso6 := by decide
theorem test_decode_txPull : decodeTableWord 32 0x00000013 = some .txPull := by decide
theorem test_decode_txReclaim : decodeTableWord 32 0x00000014 = some .txReclaim := by decide
theorem test_decode_rxDrain : decodeTableWord 32 0x00001020 = some (.rxDrain 16#24) := by decide
theorem test_decode_rxDrain_inf : decodeTableWord 32 0xFFFFFF20 = some rxDrainAll := by decide
theorem test_decode_rxDrain_zero : decodeTableWord 32 0x00000020 = some (.rxDrain 0#24) := by decide
theorem test_decode_poolRefill : decodeTableWord 32 0x00000030 = some .poolRefill := by decide
theorem test_decode_irqDispatch : decodeTableWord 32 0x00000040 = some .irqDispatch := by decide
theorem test_decode_pollService : decodeTableWord 32 0x00000841 = some (.pollService 8#24) := by decide
theorem test_decode_pollMode : decodeTableWord 32 0x00000142 = some (.pollMode true) := by decide
theorem test_decode_wdtTick : decodeTableWord 32 0x00000043 = some .wdtTick := by decide
theorem test_decode_linkUp : decodeTableWord 32 0x00000044 = some .linkUp := by decide
theorem test_decode_linkDown : decodeTableWord 32 0x00000045 = some .linkDown := by decide
theorem test_decode_devReset : decodeTableWord 32 0x00000046 = some .devReset := by decide
theorem test_decode_devEnable : decodeTableWord 32 0x00000047 = some .devEnable := by decide
theorem test_decode_devDisable : decodeTableWord 32 0x00000048 = some .devDisable := by decide
theorem test_decode_mediumSelect : decodeTableWord 32 0x00000F49 = some (.mediumSelect 0x0F#5) := by decide
theorem test_decode_opcode_zero : decode 0x00000000#32 = .error .unknownOpcode := by rfl
theorem test_decode_operand : decode 0x00000110#32 = .error .operandNotZero := by rfl
theorem test_decode_pollMode_two : decode 0x00000242#32 = .error .pollModeOperand := by rfl
theorem test_decode_medium_bit5 : decode 0x00002049#32 = .error .mediumReserved := by rfl
theorem test_decode_opcode_0x50 : decode 0x00000050#32 = .error .unknownOpcode := by rfl

/-! ### Operations: vectors A, T, X, Q -/

theorem test_inc_wraps : inc 250#16 10 256 = 4#16 ∧ inc 14#16 3 16 = 1#16 := by decide
theorem test_dist_wraps : Machine.dist 250#16 4#16 256 = 10 ∧ Machine.dist 206#16 200#16 256 = 250 := by decide
theorem test_slotAddr : slotAddr 0x1000#64 16 15#16 = 0x10F0#64 := by decide
theorem test_fold : fold 0x1234#16 0x0100#16 = 0x1134#16 ∧ fold 0x0010#16 0x0020#16 = 0xFFEF#16 ∧
    fold 0#16 0xFFFF#16 = 0#16 ∧ fold 0xABCD#16 0xABCD#16 = 0#16 := by decide
theorem test_cmd_tso4 :
    frameCmd Cfg.default { frame64 .tso4 with mss := 1460#16, csumReq := csUdp4 } = 0x16D11022#32 := by decide
theorem test_cmd_tso6_vlan : frameCmd Cfg.default { frame64 .tso6 with vlan := some 1#16 } = 0x15E0B036#32 := by decide
theorem test_cmd_first_row :
    frameCmd Cfg.default { frame64 .none with csumReq := csIp4 ||| csTcp4 } = 0x00010622#32 := by decide
theorem test_cmd_udp6 :
    frameCmd Cfg.default { frame64 .none with csumReq := csUdp6, vlan := some 0#16 } = 0x00008836#32 := by decide
/-- T11. -/
theorem test_data_descriptor :
    let vt := vlanField Cfg.default (some 0x0064#16)
    readBytes (writeData Layout.default [] 0x1000#64 1514#16 vt 0x80018622#32 0x123456000#64) 0x1000#64 16 =
    [0xEA#8, 0x05#8, 0x00#8, 0x64#8, 0x22#8, 0x86#8, 0x01#8, 0x80#8,
      0x00#8, 0x60#8, 0x45#8, 0x23#8, 0x01#8, 0x00#8, 0x00#8, 0x00#8] := by decide
/-- X2. -/
theorem test_completion :
    decodeCompletion Cfg.default 0x00410000#32 0x00056400#32 0x80010040#32 =
      { len := 64, count := 1, start := 4#16, pid := 5#8, err := 0#32, tagged := true, vtag := 0x6400#16 } := by decide
/-- X12, X13. -/
theorem test_csumValid :
    csumValid Cfg.default 3#8 0x4000#32 = 0x01#5 ∧ csumValid Cfg.default 3#8 0xC000#32 = 0x00#5 ∧
    csumValid Cfg.default 0x7F#8 0#32 = 0x00#5 := by decide

/-- The bytes of T22: an IPv4 header of 20 bytes in a frame at 0x100. -/
def header4 : Memory :=
  [(0x10E, 0x45#8), (0x110, 0x0B#8), (0x111, 0x90#8), (0x132, 0x12#8), (0x133, 0x34#8)]
/-- The bytes of T24: an IPv6 header in a frame at 0x100. -/
def header6 : Memory := [(0x112, 0x22#8), (0x113, 0xF2#8), (0x146, 0xAB#8), (0x147, 0xCD#8)]
/-- One segment of 80 bytes at 0x100. -/
def headerSegs : List Seg := [⟨0x100#64, 80#16⟩]

/-- T22. -/
theorem test_tso4Fix : (tso4Fix header4 headerSegs).map (fun m => netRead16 m headerSegs 50) = some (some 0x06B8#16) := by
  decide
/-- T24. -/
theorem test_tso6Fix :
    (tso6Fix Cfg.default header6 headerSegs).map (fun r => (netRead16 r.1 headerSegs 70, netRead16 r.1 headerSegs 18, r.2)) =
      some (some 0x88DB#16, some 0#16, 0x2328#32) := by decide

/-! ### One step of each operation -/

/-- R145: two buffers, one spare. -/
theorem test_ringSetup :
    see .ringSetup { answers [some 0x100#64, some 0x200#64, some 0x300#64] [some 0x1000#64, some 0x2000#64, some 0x3000#64] []
        State.reset with cfg := tiny }
      (fun t => (t.result, t.tx.ringPhys, t.rx.mbuf.length, load64 t.mem 0x3000#64, t.pool.spare.length)) =
    some (.ok, 0x1000#64, 2, 0x100#64, 1) := by decide
/-- 10_state.md R40, R43, column (b) of R54: the registers after it, whatever they held before. -/
theorem test_ringSetup_registers :
    let before : DeviceRegs :=
      { txCons := 3#16, rfdCons := 1#16, rrdProd := 1#16, tpdPidx := 5#16, rfdPidx := 0#16, isr := 7#32, imr := 9#32 }
    see .ringSetup { answers [some 0x100#64, some 0x200#64, some 0x300#64] [some 0x1000#64, some 0x2000#64, some 0x3000#64] []
        State.reset with cfg := tiny, mac := { Mac.powerOn with regs := before } }
      (fun t => (t.mac.regs, t.trace)) =
    some ({ before with txCons := 0#16, rfdCons := 0#16, rrdProd := 0#16, tpdPidx := 0#16, rfdPidx := 1#16 }, []) := by decide
/-- R145, fail: the second buffer is refused; the first is freed and the three regions are released. -/
theorem test_ringSetup_fails :
    see .ringSetup { answers [some 0x100#64, none] [some 0x1000#64, some 0x2000#64, some 0x3000#64] [] State.reset with
        cfg := tiny }
      (fun t => (t.result, t.flags.ringsUp, t.trace.length)) = some (.fail, false, 5) := by decide
/-- 20_memory.md R77, R86: a region that is not aligned, and one that shares a byte with another, are no answers. -/
theorem test_dmaAlloc_refuses :
    (dmaAlloc 64 (answers [] [some 0x1003#64] [] State.reset)).1 = none ∧
    (dmaAlloc 64 (answers [] [some 0x3FC8#64] [] (rings tiny))).1 = none ∧
    (dmaAlloc 64 (answers [] [some 0x3FC0#64] [] (rings tiny))).1 = some 0x3FC0#64 := by decide
theorem test_ringTeardown :
    see .ringTeardown (rings tiny) (fun t => (t.flags.ringsUp, t.rx.mbuf, t.pool.spare, t.trace.length)) =
      some (false, [], [], 6) := by decide
theorem test_txClear :
    see .txClear { rings tiny with
        mem := [(0x1000, 7#8), (0x1200, 9#8)], tx := { (rings tiny).tx with next := 2#16, numFree := 30#32 } }
      (fun t => (t.tx.numFree, t.tx.next, t.mem)) = some (32#32, 0#16, [(0x1200, 9#8)]) := by decide
theorem test_rxReset :
    see .rxReset { rings tiny with rx := { (rings tiny).rx with next := 1#16, free := 1#16 } }
      (fun t => (t.rx.next, t.rx.free, t.mac.regs.rfdPidx, t.rx.mbuf.length)) = some (0#16, 0#16, 1#16, 2) := by decide
/-- T10. -/
theorem test_txqPlain :
    see .txqPlain { up tiny with frameArg := frame64 .none }
      (fun t => (t.result, readBytes t.mem 0x1000#64 12, t.tx.mbuf.head?, t.tx.numFree, t.mac.regs.tpdPidx)) =
    some (.sent, [0x40#8, 0#8, 0#8, 0#8, 0#8, 0#8, 0#8, 0x80#8, 0#8, 0x50#8, 0x34#8, 0x12#8],
      some (some (frame64 .none)), 31#32, 1#16) := by decide
/-- R168: room for one more than the margin is enough, one less is not. -/
theorem test_txqPlain_margin :
    see .txqPlain { up tiny with frameArg := frame64 .none, tx := { (up tiny).tx with numFree := 3#32 } }
      (fun t => (t.result, t.tx.stalled, t.tx.numFree, t.stats.txStall)) = some (.stall, true, 3#32, 1) ∧
    see .txqPlain { up tiny with frameArg := frame64 .none, tx := { (up tiny).tx with numFree := 4#32 } }
      (fun t => (t.result, t.tx.numFree)) = some (.sent, 3#32) := by decide
/-- 20_memory.md R87, 41_transmit.md R166: a segment of length 0 and a third segment are none that `SgMap` gives; an address is
not looked at (60_exceptions.md R272), be it in a ring, in a posted buffer or in a frame in flight. -/
theorem test_sgMap_segments :
    sgMap (up tiny) { frame64 .none with segs := some [⟨0x100#64, 0#16⟩] } = none ∧
    sgMap (up tiny) { frame64 .none with segs := some (List.replicate 3 ⟨0x100#64, 1#16⟩) } = none ∧
    [0x1000#64, 0x8000#64, 0xFFFFFFFFFFFFFFFF#64].all (fun a =>
      sgMap (up tiny) { frame64 .tso4 with segs := some [⟨a, 0xFFFF#16⟩] } == some [⟨a, 0xFFFF#16⟩]) = true := by decide
theorem test_txqTso4 :
    see .txqTso4 { up tiny with
        mem := header4, frameArg := { frame64 .tso4 with mss := 1460#16, segs := some headerSegs } }
      (fun t => (load32 t.mem 0x1004#64, netRead16 t.mem headerSegs 50)) = some (0x96D11022#32, some 0x06B8#16) := by decide
/-- The same with a frame of one byte at `a` in flight. -/
def besideFlight (a : Addr) : State :=
  { up tiny with
    mem := header4, frameArg := { frame64 .tso4 with mss := 1460#16, segs := some headerSegs }
    tx := { (up tiny).tx with
      next := 1#16, numFree := 31#32
      mbuf := some { frame64 .none with segs := some [⟨a, 1#16⟩] } :: List.replicate 31 none } }
/-- 60_exceptions.md R272: a frame is sent whatever its addresses, be a payload byte of it in flight already or a byte of its
checksum; only in the second case is a byte of its header a free one. -/
theorem test_txqTso4_shared :
    let result (s : State) := see .txqTso4 s fun t => (t.result, t.foreign, t.tx.next, t.mac.regs.tpdPidx, t.tx.numFree)
    foreignHeader (besideFlight 0x134#64) .tso4 headerSegs = [] ∧
    result (besideFlight 0x134#64) = some (.sent, 0, 2#16, 2#16, 30#32) ∧
    foreignHeader (besideFlight 0x133#64) .tso4 headerSegs = [0x133#64] ∧
    result (besideFlight 0x133#64) = some (.sent, 1, 2#16, 2#16, 30#32) := by decide
/-- T13 with one segment. -/
theorem test_txqTso6 :
    see .txqTso6 { up tiny with mem := header6, frameArg := { frame64 .tso6 with segs := some headerSegs } }
      (fun t => (load32 t.mem 0x1004#64, load64 t.mem 0x1008#64, load32 t.mem 0x1014#64, t.tx.next,
        t.tx.mbuf.head? == some none, t.tx.numFree)) =
    some (0x15E03036#32, 0x2328#64, 0x95E03036#32, 2#16, true, 30#32) := by decide
/-- T36. -/
theorem test_txPull :
    see .txPull { up puller with
        tx := { (up puller).tx with numFree := 4#32 }, env := { (up puller).env with outbound := [frame64 .none] } }
      (fun t => (t.tx.numFree, t.tx.stalled, t.stats.txStall, t.env.outbound)) = some (3#32, true, 0, []) := by decide
/-- T38. -/
theorem test_txPull_gate :
    see .txPull { down puller with env := { (down puller).env with outbound := [frame64 .none, frame64 .none] } }
      (fun t => (t.stats.txDrop, t.tx.numFree, t.mac.regs.tpdPidx)) = some (2, 32#32, 0#16) := by decide
/-- T39, with the wrap of T42. -/
theorem test_txReclaim :
    see .txReclaim { up tiny with
        tx := { (up tiny).tx with
          dirty := 31#16, next := 1#16, numFree := 30#32, doneCount := 0xFFFFFFFF#32,
          mbuf := some (frame64 .none) :: List.replicate 31 none }
        mac := { (up tiny).mac with regs := { (up tiny).mac.regs with txCons := 1#16 } } }
      (fun t => (t.tx.dirty, t.tx.numFree, t.tx.doneCount, t.tx.mbuf.head? == some none, t.trace)) =
    some (1#16, 32#32, 1#32, true, [.release (frame64 .none) true]) := by decide
/-- T43, T44: above a quarter of the ring, not at it. -/
theorem test_txReclaim_wake :
    see .txReclaim { up tiny with
        tx := { (up tiny).tx with stalled := true, dirty := 1#16, next := 0#16, numFree := 1#32 }
        mac := { (up tiny).mac with regs := { (up tiny).mac.regs with txCons := 8#16 } } }
      (fun t => (t.tx.numFree, t.tx.stalled)) = some (8#32, true) ∧
    see .txReclaim { up tiny with
        tx := { (up tiny).tx with stalled := true, dirty := 1#16, next := 0#16, numFree := 1#32 }
        mac := { (up tiny).mac with regs := { (up tiny).mac.regs with txCons := 9#16 } } }
      (fun t => (t.tx.numFree, t.tx.stalled, t.env.resumable)) = some (9#32, false, true) := by decide
/-- X1 with 12 bytes of payload and the CRC trailer. -/
theorem test_rxDrain :
    see (.rxDrain 16#24) (answers [some 0x9000#64] [] [] (withCompletion 0x00010000#32 0x00030000#32 0x80000010#32 (up tiny)))
      (fun t => (t.result, t.rx.free, t.mac.regs.rfdPidx, load32 t.mem 0x400C#64, load64 t.mem 0x5000#64)) =
    some (.count 1, 1#16, 0#16, 0x00000010#32, 0x9000#64) := by decide
/-- X5, X6: a drop leaves the posted buffer and advances past every slot. -/
theorem test_rxDrain_drops :
    see (.rxDrain 1#24) (withCompletion 0x00020000#32 0x00030000#32 0x80000018#32 (up tiny))
      (fun t => (t.result, t.stats.rxLenErr, t.rx.free, t.mac.regs.rfdPidx, t.rx.mbuf == (up tiny).rx.mbuf)) =
    some (.count 0, 1, 0#16, 1#16, true) := by decide
/-- 70_reset_and_hazards.md R298: an unbounded drain against a MAC that never stops does not end. -/
theorem test_rxDrain_unbounded :
    exec (.rxDrain 0xFFFFFF#24) { up tiny with env := { (up tiny).env with ceaseless := true } } =
      .fault .drainUnbounded := by rfl
/-- Q12. -/
theorem test_poolRefill :
    see .poolRefill (answers [some 0x9000#64] [] []
        { up tiny with pool := { spare := [], refillPending := true } })
      (fun t => (t.pool.spare.map Buf.phys, t.pool.refillPending)) = some ([0x9000#64], false) := by decide
/-- E4: an alert is logged and acknowledged. -/
theorem test_irqDispatch_alert :
    see .irqDispatch { up tiny with mac := { (up tiny).mac with regs := { (up tiny).mac.regs with isr := 0x8#32 } } }
      (fun t => (t.mac.regs.isr, t.trace)) =
    some (0#32, [.regWrite 0x1600 32 0#32, .log .alert, .regWrite 0x1600 32 0x80000008#32]) := by decide
/-- E2: a fatal bit resets and serves nothing. -/
theorem test_irqDispatch_fatal :
    see .irqDispatch (answers [] [none] [.ok]
        { up tiny with mac := { (up tiny).mac with regs := { (up tiny).mac.regs with isr := 0x18200#32 } } })
      (fun t => (t.stats.resetCount, t.flags.enabled, t.trace.getLast?)) =
    some (1, false, some (.regWrite 0x1600 32 0x80018200#32)) := by decide
/-- E12. -/
theorem test_pollService_off : see (.pollService 8#24) (up tiny) (fun t => (t.result, t.trace)) = some (.count 0, []) := by
  decide
theorem test_pollService :
    see (.pollService 8#24) (answers [some 0x9000#64] [] [] (withCompletion 0x00010000#32 0#32 0x80000010#32
        { up tiny with flags := { (up tiny).flags with pollMode := true } }))
      (fun t => (t.result, t.trace.contains .flushBatch)) = some (.count 1, false) := by decide
theorem test_pollMode :
    see (.pollMode true) (down tiny) (fun t => (t.flags.pollMode, t.result)) = some (true, .returned) ∧
    see (.pollMode true) (rings tiny) (fun t => (t.flags.pollMode, t.result)) = some (false, .refused) := by decide
/-- E16. -/
theorem test_wdtTick :
    see .wdtTick { up tiny with tx := { (up tiny).tx with numFree := 31#32 } } (fun t => t.wdt.stallTicks) = some 1 := by
  decide
/-- E18: nothing outstanding is no stall. -/
theorem test_wdtTick_idle :
    see .wdtTick { up tiny with wdt := { lastDone := 0#32, stallTicks := 1 } } (fun t => t.wdt.stallTicks) = some 0 := by
  decide
/-- E13. -/
theorem test_linkUp :
    see .linkUp { answers [] [] [.ok] (down tiny) with linkArg := gigabit }
      (fun t => (t.link, t.mac.regs.imr, t.flags.linkUp, t.flags.wdtArmed, t.env.resumable)) =
    some (gigabit, 0x04019718#32, true, true, true) := by decide
/-- E15. -/
theorem test_linkDown :
    see .linkDown (answers [] [] [.ok, .ok, .ok]
        { up tiny with
          tx := { (up tiny).tx with next := 7#16, dirty := 3#16, numFree := 28#32 }
          rx := { (up tiny).rx with next := 1#16, free := 1#16 } })
      (fun t => (t.tx.numFree, t.rx.free, t.mac.regs.imr, t.mac.regs.rfdPidx, t.link, t.rx.mbuf.length)) =
    some (32#32, 0#16, 0x04001718#32, 1#16, Link.down, 2) := by decide
/-- E30. -/
theorem test_devReset :
    see .devReset (answers [some 0x100#64, some 0x200#64, some 0x300#64] [some 0x1000#64, some 0x2000#64, some 0x3000#64]
        [.ok, .ok, .ok, .ok, .ok] { up tiny with flags := { (up tiny).flags with pollMode := true } })
      (fun t => (t.result, t.flags.pollMode, t.flags.linkUp, t.tx.ringPhys)) = some (.ok, true, false, 0x1000#64) := by
  decide
/-- E21. -/
theorem test_devEnable :
    see .devEnable (answers [some 0x100#64, some 0x200#64, some 0x300#64] [some 0x1000#64, some 0x2000#64, some 0x3000#64]
        [.ok, .ok, .ok, .ok] { State.reset with cfg := tiny })
      (fun t => (t.result, mode t, t.mac.regs.rfdPidx, t.mac.regs.imr)) = some (.ok, .down, 1#16, 0x04001718#32) := by
  decide
/-- E23. -/
theorem test_devEnable_timeout :
    see .devEnable (answers [some 0x100#64, some 0x200#64, some 0x300#64] [some 0x1000#64, some 0x2000#64, some 0x3000#64]
        [.ok, .timeout DeviceRegs.zero] { State.reset with cfg := tiny })
      (fun t => (t.result, mode t, t.flags.ringsUp)) = some (.fail, .disabled, false) := by decide
/-- E25. -/
theorem test_devDisable :
    see .devDisable (answers [] [] [.ok] (up tiny))
      (fun t => (t.result, mode t, t.rx.mbuf, (newActs t (up tiny)).take 2)) =
    some (.ok, .disabled, [], [.regWrite 0x1604 32 0#32, .regWrite 0x1600 32 0x80000000#32]) := by decide
/-- E27. -/
theorem test_mediumSelect :
    see (.mediumSelect 0x02#5) (answers [] [] [.ok, .ok, .ok, .ok] (up tiny))
      (fun t => (t.result, t.medium, t.mac.advertised, mode t)) = some (.ok, 0x02#5, 0x02#5, .down) := by decide
/-- E29. -/
theorem test_mediumSelect_illegal :
    see (.mediumSelect 0x03#5) (up tiny) (fun t => (t.result, t.medium, t.trace)) =
      some (.fail, 0#5, [.raised .cfgInvalidMedium]) := by decide

/-! ### One step of the machine -/

theorem test_step_idle : step State.reset = .next State.reset := by rfl
/-- E28, requested as the first operation after reset. -/
theorem test_withFetchWord :
    (match step (State.reset.withFetchWord 32 0x00000F49) with
      | .next t => some (t.medium, t.result, t.pending.length)
      | _ => none) = some (0x0F#5, .ok, 0) := by decide

/-- 20_memory.md R92: another user of memory stores where the core holds nothing, and nowhere else. -/
theorem test_hostWrite :
    (hostWrite 0x9000#64 [7#8] (rings tiny)).mem = [(0x9000, 7#8)] ∧
    (hostWrite 0x5000#64 [7#8] (rings tiny)).mem = [] ∧ (hostWrite 0x8000#64 [7#8] (rings tiny)).mem = [] := by decide

/-! ### Machines in operation, and what makes them sound -/

/-- The free ring of a fresh machine, each descriptor with the address of its buffer. -/
def freeRing (c : Cfg) : Memory :=
  (List.range c.nRfd).foldl (fun m i => store64 m (rfdFieldAddr c 0x5000#64 (BitVec.ofNat 16 i)) (buf c i).phys) []
/-- A machine with a request that every invariant's step takes. -/
def running : State := { up tiny with pending := [.op (request 0x43#32)] }
/-- The same with its free ring filled in and one frame in flight. -/
def posted : State :=
  { running with
    mem := store64 (store32 (freeRing tiny) 0x1004#64 0x80000000#32) 0x1008#64 0x12345000#64
    tx := { running.tx with next := 1#16, numFree := 31#32, mbuf := some (frame64 .none) :: List.replicate 31 none } }
/-- The same with the stores of a setup late: the MAC sees other memory than the core in both receive rings. -/
def zeroing : State :=
  { posted with late := [{ base := 0x4000#64, seen := List.replicate 16 0x11#8, due := none },
    { base := 0x5000#64, seen := [0x00#8, 0x80#8, 0#8, 0#8, 0#8, 0#8, 0#8, 0#8], due := none }] }
/-- A machine with four posted buffers, three of them offered. -/
def wide : State := { up { tiny with nRfd := 4 } with mem := freeRing { tiny with nRfd := 4 } }

/-- `RxSound` of a machine with rings, as a test. -/
def rxSoundTest (s : State) : Bool :=
  s.flags.ringsUp && decide (s.rx.next.toNat < s.cfg.nRrd) && decide (s.rx.free.toNat < s.cfg.nRfd) &&
  decide (s.rx.mbuf.length = s.cfg.nRfd) && decide (s.pool.spare.length ≤ s.cfg.spareCap) &&
  s.rx.mbuf.all (fun e => e.any fun b => b.cap == s.cfg.rxBufSize && b.phys.toNat % s.cfg.bufAlign == 0 && b.phys != 0#64) &&
  s.pool.spare.all fun b => b.cap == s.cfg.rxBufSize && b.phys.toNat % s.cfg.bufAlign == 0 && b.phys != 0#64
theorem rxSound_of {s : State} (h : rxSoundTest s = true) : RxSound s := by
  simp only [rxSoundTest, Bool.and_eq_true, decide_eq_true_eq, List.all_eq_true, Option.any_eq_true, beq_iff_eq, bne_iff_ne] at h
  obtain ⟨⟨⟨⟨⟨⟨h1, h2⟩, h3⟩, h4⟩, h5⟩, h6⟩, h7⟩ := h
  refine ⟨fun _ => h1, fun _ => ⟨h2, h3, h4, fun e he => ?_⟩, h5, fun b hb => ?_⟩
  · obtain ⟨b, hb, ⟨h8, h9⟩, h10⟩ := h6 e he
    exact ⟨b, hb, h8, h9, h10⟩
  · obtain ⟨⟨h8, h9⟩, h10⟩ := h7 b hb
    exact ⟨h8, h9, h10⟩

/-- The descriptors of posted buffers and of frames in flight hold what `TrackingSound` says, as a test. -/
def descriptorsTest (s : State) : Bool :=
  (List.range s.cfg.nRfd).all (fun i =>
    (s.rx.mbuf[i]?.join).all fun b => load64 s.mem (rfdSlot s (BitVec.ofNat 16 i)) == b.phys) &&
  (List.range s.cfg.nTx).all fun i => (s.tx.mbuf[i]?.join).all fun f =>
    let a := tpdSlotAddr s.cfg s.tx.ringPhys (BitVec.ofNat 16 i)
    wordBit (load32 s.mem (fieldAddr a s.cfg.layout.tpdCmd)) s.cfg.layout.eop &&
    (f.segs.bind List.getLast?).any fun g => load64 s.mem (fieldAddr a s.cfg.layout.tpdAddr) == g.addr
theorem descriptorsPosted_of {s : State} (h : descriptorsTest s = true) : DescriptorsPosted s := by
  simp only [descriptorsTest, Bool.and_eq_true, List.all_eq_true, List.mem_range, Option.all_eq_true,
    Option.join_eq_some_iff, beq_iff_eq] at h
  exact fun i hi b hb => h.1 i hi b hb
theorem trackingSound_of {s : State} (h : descriptorsTest s = true)
    (hr : s.env.live.Pairwise (fun p q => apart p q = true) ∧ (∀ r ∈ s.env.live, r.base.toNat + r.size ≤ 2 ^ 64) ∧
      (coreRegions s).isSubperm s.env.live = true)
    (hm : MacSound s) (hl : LateSound s) : TrackingSound s := by
  refine ⟨fun _ => ⟨descriptorsPosted_of h, fun i hi f hf => ?_⟩, ⟨hr.1, hr.2.1, List.isSubperm_iff.1 hr.2.2⟩, hm, hl⟩
  simp only [descriptorsTest, Bool.and_eq_true, List.all_eq_true, List.mem_range, Option.all_eq_true, Option.any_eq_true,
    Option.join_eq_some_iff, beq_iff_eq, Option.bind_eq_some_iff] at h
  obtain ⟨he, g, ⟨l, hl, hg⟩, ha⟩ := h.2 i hi f hf
  exact ⟨he, l, g, hl, hg, ha⟩
/-- Late stores with no fence behind them and no doorbell write posted. -/
theorem lateSound_of {s : State} (hp : s.posted = []) (hd : ∀ e ∈ s.late, e.due = none)
    (ha : s.late.Pairwise fun d e => SameOrApart (lateRegion d) (lateRegion e))
    (hr : ∀ e ∈ s.late, ∀ r ∈ allSlots s, SameOrApart (lateRegion e) r)
    (hb : bellSeen .tx s = s.mac.regs.txCons ∨ s.late = []) : LateSound s :=
  ⟨ha, fun _ => hr, fun e he k hk => by simp [hd e he] at hk,
    fun _ => ⟨fun k p h => by simp [hp] at h, fun h => hb.resolve_left h⟩⟩
theorem tracking_posted : TrackingSound posted :=
  trackingSound_of (by decide) (by decide) (by unfold MacSound; decide)
    (lateSound_of rfl (by decide) (by unfold SameOrApart; decide) (by unfold SameOrApart; decide) (by decide))
theorem tracking_zeroing : TrackingSound zeroing :=
  trackingSound_of (by decide) (by decide) (by unfold MacSound; decide)
    (lateSound_of rfl (by decide) (by unfold SameOrApart; decide) (by unfold SameOrApart; decide) (by decide))
theorem tracking_wide : TrackingSound wide :=
  trackingSound_of (by decide) (by decide) (by unfold MacSound; decide)
    (lateSound_of rfl (by decide) (by unfold SameOrApart; decide) (by unfold SameOrApart; decide) (by decide))

/-! ### Where other agents step, and when stores reach the MAC -/

/-- A running machine with one descriptor published at slot 0. -/
def fetching (m : Memory) : State :=
  { up tiny with
    mem := m
    tx := { (up tiny).tx with next := 1#16, numFree := 31#32 }
    mac := { (up tiny).mac with regs := { (up tiny).mac.regs with tpdPidx := 1#16 } } }
/-- 10_state.md R57: the data of a data descriptor is read too; of a context descriptor, none. -/
theorem test_macFetch :
    (macFetchAct 0#16 (fetching [(0x1000, 2#8), (0x1009, 3#8), (0x300, 7#8), (0x301, 9#8), (0x302, 5#8)]) =
      .macFetch 0#16 [2#8, 0#8, 0#8, 0#8, 0#8, 0#8, 0#8, 0#8, 0#8, 3#8, 0#8, 0#8, 0#8, 0#8, 0#8, 0#8] [7#8, 9#8]) ∧
    macFetchAct 0#16 (fetching [(0x1009, 3#8), (0x300, 7#8)]) =
      .macFetch 0#16 [0#8, 0#8, 0#8, 0#8, 0#8, 0#8, 0#8, 0#8, 0#8, 3#8, 0#8, 0#8, 0#8, 0#8, 0#8, 0#8] [] := by decide
/-- 20_memory.md R94, R95: a frame in flight keeps its bytes, its memory and its address. -/
theorem test_inFlight_kept :
    (hostWrite 0x1234503F#64 [7#8] posted).mem = posted.mem ∧ (hostWrite 0x12345040#64 [7#8] posted).mem ≠ posted.mem ∧
    (bufReturn ⟨0x12345000#64, 64⟩ { posted with env := { posted.env with live := [⟨0x12345000#64, 64⟩] } }).env.live =
      [⟨0x12345000#64, 64⟩] ∧
    bufAnswerFits true 16 (bufAt 0x12345038#64) posted = false := by decide
/-- Three descriptors free, two completed and two frames queued, a `TX.PULL` in progress. -/
def halfWay (during : List (List MidStep)) : State :=
  { up puller with
    tx := { (up puller).tx with numFree := 3#32, next := 29#16 }
    mac := { (up puller).mac with regs := { (up puller).mac.regs with txCons := 2#16 } }
    puller := .looping
    env := { (up puller).env with outbound := [frame64 .none, frame64 .none], during := during } }
/-- 41_transmit.md R183: the PULLER against a reclaim: after it, between its two adds, and before it. -/
theorem test_reclaim_in_parts :
    see .txPull { halfWay [] with tx := { (halfWay []).tx with dirty := 2#16, numFree := 5#32 } }
      (fun t => (t.env.outbound.length, t.tx.numFree)) = some (0, 3#32) ∧
    see .txReclaim (halfWay [List.replicate 5 .pull]) (fun t => (t.env.outbound.length, t.tx.numFree)) = some (1, 4#32) ∧
    (match finishPull (halfWay []) with
      | .next t => some (t.env.outbound.length, t.tx.numFree, t.tx.stalled)
      | _ => none) = some (2, 3#32, true) := by decide
/-- A stalled queue whose reclaim just passes the wake threshold, with three frames queued and a reserve of a quarter. -/
def waking (during : List (List MidStep)) : State :=
  { up { puller with pullReserve := 8 } with
    tx := { (up puller).tx with stalled := true, next := 24#16, numFree := 8#32 }
    mac := { (up puller).mac with regs := { (up puller).mac.regs with txCons := 1#16 } }
    puller := .looping
    env := { (up puller).env with outbound := List.replicate 3 (frame64 .none), during := during } }
/-- 41_transmit.md R183, the plain accesses of the stall flag: between the test of `wake` and its clearing the PULLER sends two
frames and flags the stall; the clearing undoes that. -/
theorem test_wake_clears_a_later_stall :
    see .txReclaim (waking [[], List.replicate 7 .pull]) (fun t => (t.tx.numFree, t.tx.stalled, t.puller)) =
      some (7#32, false, .saw 7#32) ∧
    see .txReclaim (waking [[], List.replicate 8 .pull]) (fun t => (t.tx.numFree, t.tx.stalled, t.env.outbound.length)) =
      some (7#32, false, 1) ∧
    see .txReclaim (waking [[], List.replicate 7 .pull, [.pull]]) (fun t => (t.tx.numFree, t.tx.stalled)) =
      some (7#32, true) := by decide
/-- 00_scope.md R17: between the closing of the gate and the flush the PULLER drops both queued frames, and counts them. -/
theorem test_linkDown_pull :
    see .linkDown { answers [] [] [.ok, .ok, .ok] (halfWay [List.replicate 8 .pull]) with
        tx := (up puller).tx, puller := .holds { frame64 .none with id := 2 } }
      (fun t => (t.result, t.stats.txDrop, t.env.outbound, t.puller)) = some (.ok, 3, [], .saw 32#32) := by decide
/-- A poll callback with a frame received and another queued. -/
def polled (steps : List MidStep) : State :=
  { answers [some 0x9000#64] [] [] (withCompletion 0x00010000#32 0#32 0x80000010#32 (up puller)) with
    flags := { (up puller).flags with pollMode := true }
    env := { (up puller).env with
      alloc := [some (bufAt 0x9000#64)], outbound := [frame64 .none], offered := true, during := [[], steps] } }
/-- 00_scope.md R14: the number of frames delivered stands, whatever the PULLER sends meanwhile. -/
theorem test_pollService_pull :
    see (.pollService 8#24) (polled (List.replicate 6 .pull)) (fun t => (t.result, t.tx.next, t.puller)) =
      some (.count 1, 1#16, .idle) := by decide
/-- Two frames received, the second buffer answered where the first frame was delivered. -/
def reused (during : List (List MidStep)) : State :=
  { withCompletion 0x00010000#32 0#32 0x80000010#32 (up tiny) with
    mem := store32 (store32 (withCompletion 0x00010000#32 0#32 0x80000010#32 (up tiny)).mem 0x4010#64 0x00110000#32)
      0x401C#64 0x80000010#32
    env := { (up tiny).env with
      alloc := [some (bufAt 0x9000#64), some (bufAt 0x8000#64), none], during := during } }
/-- 10_state.md R50: the STACK frees a delivered buffer while the walker goes on, and its memory is given out again. -/
theorem test_rxDrain_reuses :
    see (.rxDrain 2#24) (reused [[], [.bufReturn ⟨0x8000#64, 16⟩]]) (fun t => (tracked t.rx.mbuf).map Buf.phys) =
      some [0x9000#64, 0x8000#64] ∧
    see (.rxDrain 2#24) (reused []) (fun t => (tracked t.rx.mbuf).map Buf.phys) = some [0x9000#64, 0x8040#64] := by decide
/-- An untagged frame without errors. -/
def noMeta : RxMeta :=
  { pid := 0#8, err := 0#32, vlan := none, ignored0 := 0#32, ignored1 := 0#32, ignored2 := 0#32, ignored3 := 0#32 }
/-- 20_memory.md R88: the zeroing of a completion descriptor arrives after the MAC completed a frame there. -/
theorem test_late_zeroing :
    let s := macStep (.rx [1#8, 2#8, 3#8, 4#8] noMeta false) zeroing
    let t := macStep (.arrive (macRrd zeroing)) s
    isUpdated tiny (rrdFlagWord s) = false ∧ isUpdated tiny (load32 (macView s) 0x400C#64) = true ∧
    isUpdated tiny (load32 (macView t) 0x400C#64) = false ∧ t.mac.regs.rrdProd = 1#16 ∧
    readBytes t.mem 0x8000#64 4 = [1#8, 2#8, 3#8, 4#8] := by decide
/-- The MAC sees the free descriptor of slot 0 as it was, with the address of another buffer it may fill; of a buffer outside
its window, it fills none (10_state.md R60). -/
theorem test_late_free_descriptor :
    let s (b : Byte) := { wide with late := [⟨0x5000#64, [b, 0x80#8, 0#8, 0#8, 0#8, 0#8, 0#8, 0#8], none⟩] }
    readBytes (macStep (.rx [1#8, 2#8, 3#8, 4#8] noMeta false) (s 0x40#8)).mem 0x8040#64 4 = [1#8, 2#8, 3#8, 4#8] ∧
    macRxReady 4 (s 0xC0#8) = false ∧ macRxReady 4 (regWrite .rfdPidx 3#32 (fence (s 0xC0#8))) = true := by decide
/-- 10_state.md R56, R60: a reset that timed out has left indices outside the rings, or a transmit index at a slot that is not in
flight, and the MAC touches nothing. -/
theorem test_mac_outside_its_rings :
    let s (r : DeviceRegs) := { wide with mac := { wide.mac with regs := r } }
    macRxReady 4 (s { wide.mac.regs with rrdProd := 2#16 }) = false ∧
    macRxReady 4 (s { wide.mac.regs with rfdCons := 4#16 }) = false ∧
    macTxReady (s { wide.mac.regs with tpdPidx := 32#16 }) = false ∧
    macTxReady (s { wide.mac.regs with txCons := 32#16 }) = false ∧
    macTxReady (fetching []) = true := by decide
/-- 20_memory.md R89, R91: two doorbell writes posted, a late store fenced ahead of the second: the first arrives without it, the
second brings it. The MAC sees the doorbell of the first that has not arrived. -/
theorem test_posted_doorbells :
    let s := { wide with
      env := { wide.env with slowBus := true }
      late := [⟨0x5000#64, [0x40#8, 0x80#8, 0#8, 0#8, 0#8, 0#8, 0#8, 0#8], none⟩] }
    let t := regWrite .tpdPidx 2#32 (fence (regWrite .tpdPidx 1#32 s))
    (bellSeen .tx t, t.mac.regs.tpdPidx, t.late.length) = (0#16, 2#16, 1) ∧
    (bellSeen .tx (reach 1 t), (reach 1 t).late.length) = (1#16, 1) ∧
    (bellSeen .tx (reach 2 t), (reach 2 t).late) = (2#16, []) ∧ (regFlush t).posted = [] ∧ (regFlush t).late = [] := by decide
/-- 20_memory.md R88: two stores to one descriptor are late; the older one arrives first. -/
theorem test_late_in_order :
    let s := { rings tiny with env := { (rings tiny).env with slowBus := true }, mem := [(0x4000, 1#8)] }
    let t := (holdLate [⟨0x4000#64, 16⟩] s).setMem [(0x4000, 2#8)]
    let u := (holdLate [⟨0x4000#64, 16⟩] t).setMem [(0x4000, 3#8)]
    let r : Region := { base := 0x4000#64, size := 32 }
    readByte (macView u) 0x4000#64 = 1#8 ∧ readByte (macView (arrive r u)) 0x4000#64 = 2#8 ∧
    readByte (macView (arrive r (arrive r u))) 0x4000#64 = 3#8 := by decide

/-- A machine that resets with its rings where they were and two buffers swapped, no store of the core reaching the MAC. -/
def rebuilding : State :=
  let s := answers [some 0x8040#64, some 0x8000#64, some 0x8080#64, some 0x80C0#64, none]
    [some 0x1000#64, some 0x4000#64, some 0x5000#64] (List.replicate 5 .ok) wide
  { s with env := { s.env with slowBus := true } }
/-- 20_memory.md R88: no fence stands in `DEV.RESET`, so the MAC may read a free descriptor from before the teardown. -/
theorem test_devReset_late :
    see .devReset rebuilding (fun t =>
      (t.result, load64 t.mem 0x5000#64, load64 (macView t) 0x5000#64, macRxReady 4 t,
        readBytes (macStep (.rx [1#8, 2#8, 3#8, 4#8] noMeta false) (macStep (.reach 1) t)).mem 0x8000#64 4)) =
      some (.ok, 0x8040#64, 0x8000#64, false, [1#8, 2#8, 3#8, 4#8]) := by decide +kernel

/-! ### Witnesses: states that meet the hypotheses of the statements -/

/-- A machine with one request scheduled. -/
def requested (w : Word) : State := { up tiny with pending := [.op (request w)] }

/-- Opcode 0, an operand where none is taken, and the smallest operand `POLL.MODE` refuses. -/
theorem witness_IllegalWordsAreRefused_word :
    tiny.valid = true ∧ (requested 0#32).pending = .op (request 0#32) :: [] ∧
    IllegalWord (request 0x00000000#32).word ∧ IllegalWord (request 0x00000110#32).word ∧
    IllegalWord (request 0x00000242#32).word := by
  unfold IllegalWord; decide
/-- The smallest code with a reserved bit, and 1000 Mb half duplex. -/
theorem witness_IllegalWordsAreRefused_medium :
    IllegalMedium (request 0x00002049#32).word ∧ IllegalMedium (request 0x00000349#32).word := by
  unfold IllegalMedium; decide
theorem witness_RequestStepRunsItsOperation :
    (requested 0x43#32).cfg.valid = true ∧ (requested 0x43#32).pending = .op (request 0x43#32) :: [] ∧
    decode (request 0x43#32).word = .ok .wdtTick ∧
    ({ up puller with pending := [.pull] } : State).pending = .pull :: [] := ⟨by decide, rfl, rfl, rfl⟩
/-- The idle machine: a line asserted, a refill scheduled, a pull in progress, a signal, a frame offered, and nothing. -/
theorem witness_RequestStepRunsItsOperation_idle :
    let a := { up tiny with mac := { (up tiny).mac with regs := { (up tiny).mac.regs with isr := 0x8000#32 } } }
    let b := { up tiny with pool := { spare := [], refillPending := true } }
    let c := { up puller with env := { (up puller).env with resumable := true } }
    let d := offerFrame (frame64 .none) (up puller)
    (up tiny).pending = [] ∧ (up tiny).cfg.valid = true ∧ a.mac.regs.isr &&& a.mac.regs.imr ≠ 0#32 ∧
    a.mac.regs.isr &&& a.cfg.isr.dis = 0#32 ∧ (up tiny).mac.regs.isr &&& (up tiny).mac.regs.imr = 0#32 ∧
    b.pool.refillPending = true ∧ c.cfg.txSched = .pull ∧ c.env.resumable = true ∧ c.cfg.valid = true ∧
    d.env.offered = true ∧ d.env.outbound ≠ [] ∧
    (halfWay []).pending = [] ∧ (halfWay []).puller ≠ .idle ∧ (halfWay []).pool.refillPending = false ∧
    (up tiny).puller = .idle ∧ (up tiny).env.resumable = false ∧ (up tiny).env.offered = false := by decide
theorem witness_UnusableConfigurationIsRefused : ¬ConstraintsHold { tiny with txSafetyMargin := 2 } :=
  fun h => absurd h.2.2.2.2.2.2.2.2.1 (by decide)
theorem witness_RingIndexLaws : (0 ≤ 16 ∧ (0#16).toNat < 2 ^ 0) ∧ 16 ≤ 16 ∧ (65535#16).toNat < 2 ^ 16 := by decide
theorem witness_StoresAreLittleEndian : Memory.wf header4 = true := by decide
theorem witness_RegisterInterfaceReachesFiveRegisters : (up tiny).cfg.regmap.valid = true := by decide
theorem witness_CommandWordOfAFrame :
    tiny.layout = Layout.default ∧ tiny.minL4OffV4 = 34 ∧ tiny.minL4OffV6 = 54 ∧ (frame64 .tso4).tsoMode = .tso4 ∧
    (frame64 .tso6).tsoMode = .tso6 ∧ (frame64 .none).tsoMode = .none := by decide
theorem witness_Tso4FixAdjustsTheChecksum :
    Memory.wf header4 = true ∧ frameByte header4 headerSegs 14 = some 0x45#8 ∧
    netRead16 header4 headerSegs 16 = some 0x0B90#16 ∧ 50 = 14 + 4 * ((0x45#8).toNat % 16) + 16 ∧
    netRead16 header4 headerSegs 50 = some 0x1234#16 ∧ frameAddr headerSegs 50 = some 0x132#64 ∧
    frameAddr headerSegs (50 + 1) = some 0x133#64 ∧ 0x132#64 ≠ 0x133#64 := by decide
theorem witness_Tso6FixStashesTheLength :
    Memory.wf header6 = true ∧ 70 = tiny.minL4OffV6 + 16 ∧ netRead16 header6 headerSegs 18 = some 0x22F2#16 ∧
    netRead16 header6 headerSegs 70 = some 0xABCD#16 ∧ frameAddr headerSegs 18 = some 0x112#64 ∧
    frameAddr headerSegs 19 = some 0x113#64 ∧ frameAddr headerSegs 70 = some 0x146#64 ∧
    frameAddr headerSegs (70 + 1) = some 0x147#64 ∧ [0x112#64, 0x113#64, 0x146#64, 0x147#64].Nodup := by decide
/-- Link down, and disabled, with the least and the greatest MSS. -/
theorem witness_GateClosedDropsTheFrame :
    ({ down tiny with frameArg := frame64 .none } : State).frameArg.tsoMode = .none ∧ (down tiny).puller = .idle ∧
    (rings tiny).puller = .idle ∧
    ¬((down tiny).flags.enabled = true ∧ (down tiny).flags.linkUp = true) ∧
    ¬((rings tiny).flags.enabled = true ∧ (rings tiny).flags.linkUp = true) ∧
    mssInRange tiny 1#16 = true ∧ mssInRange tiny 8191#16 = true := by decide
/-- A frame enqueued with three descriptors free. -/
def offered (segs : Option (List Seg)) : State :=
  { up tiny with frameArg := { frame64 .none with segs := segs }, tx := { (up tiny).tx with numFree := 3#32 } }
/-- A frame with no segment, one that does not map, and one that leaves one descriptor fewer than the margin. -/
theorem witness_RefusedFramesLeaveTheRing :
    (offered none).frameArg.tsoMode = .none ∧ (offered none).puller = .idle ∧
    (offered none).flags.enabled = true ∧ (offered none).flags.linkUp = true ∧
    sgMap (up tiny) (offered none).frameArg = none ∧ sgMap (up tiny) (offered (some [])).frameArg = some [] ∧
    sgMap (up tiny) (offered (some headerSegs)).frameArg = some headerSegs ∧ headerSegs ≠ [] ∧
    (offered (some headerSegs)).tx.numFree.toInt - (descNeed .none headerSegs : Nat) < (tiny.txSafetyMargin : Int) := by
  decide
/-- An IPv6 TSO frame at the last slot, with just enough room. -/
def tso6Frame : State :=
  { up tiny with
    mem := header6, frameArg := { frame64 .tso6 with mss := 8191#16, segs := some headerSegs }
    tx := { (up tiny).tx with next := 31#16, dirty := 4#16, numFree := 5#32 } }
/-- The header the frame's own; and a header with a byte in flight. -/
theorem witness_EnqueuePublishesTheFrame :
    (foreignHeader tso6Frame .tso6 headerSegs = [] ∧
    tso6Frame.puller = .idle ∧ tso6Frame.frameArg.tsoMode = .tso6 ∧ mssInRange tso6Frame.cfg tso6Frame.frameArg.mss = true ∧
    tso6Frame.flags.enabled = true ∧ tso6Frame.flags.linkUp = true ∧
    sgMap tso6Frame tso6Frame.frameArg = some headerSegs ∧ headerSegs ≠ [] ∧
    (tso6Frame.cfg.txSafetyMargin : Int) ≤ tso6Frame.tx.numFree.toInt - (descNeed .tso6 headerSegs : Nat) ∧
    aligned8 tso6Frame.tx.ringPhys = true ∧
    (headerFix tso6Frame.cfg .tso6 tso6Frame.mem headerSegs).isSome = true ∧
    tso6Frame.cfg.valid = true ∧
    Memory.wf tso6Frame.mem = true ∧ tso6Frame.tx.next.toNat < tso6Frame.cfg.nTx ∧
    tso6Frame.tx.mbuf.length = tso6Frame.cfg.nTx) ∧
    let s := besideFlight 0x133#64
    foreignHeader s .tso4 headerSegs ≠ [] ∧ s.puller = .idle ∧ s.frameArg.tsoMode = .tso4 ∧
    mssInRange s.cfg s.frameArg.mss = true ∧ s.flags.enabled = true ∧ s.flags.linkUp = true ∧
    sgMap s s.frameArg = some headerSegs ∧
    (s.cfg.txSafetyMargin : Int) ≤ s.tx.numFree.toInt - (descNeed .tso4 headerSegs : Nat) ∧ aligned8 s.tx.ringPhys = true ∧
    (headerFix s.cfg .tso4 s.mem headerSegs).isSome = true ∧ s.cfg.valid = true ∧ Memory.wf s.mem = true ∧
    s.tx.next.toNat < s.cfg.nTx ∧ s.tx.mbuf.length = s.cfg.nTx := by decide
/-- A queue of plain frames to pull. -/
def queued (s : State) : State := { s with env := { s.env with outbound := [frame64 .none, frame64 .none] } }
/-- The same with a number of descriptors free. -/
def queuedFree (n : Word) (s : State) : State := { queued s with tx := { s.tx with numFree := n } }
/-- One below the reserve; at the reserve with the gate closed. -/
theorem witness_PullStopsOrDropsTheQueue :
    let s := queuedFree 3#32 (down puller)
    let t := queuedFree 4#32 (down puller)
    s.env.during = [] ∧ s.puller = .idle ∧ s.tx.numFree.toInt < s.cfg.pullReserve ∧ t.env.during = [] ∧ t.puller = .idle ∧
    (t.cfg.pullReserve : Int) ≤ t.tx.numFree.toInt ∧ ¬(t.flags.enabled = true ∧ t.flags.linkUp = true) ∧
    ∀ f ∈ t.env.outbound, f.tsoMode = .none ∨ mssInRange puller f.mss = true := by decide
/-- The head of the queue of just one frame, IPv6 TSO, with the least room there can be above the reserve. -/
theorem witness_PullSendsTheQueue_turn :
    let f := { frame64 .tso6 with mss := 1#16, segs := some headerSegs }
    let s := { up puller with
      mem := header6, tx := { (up puller).tx with numFree := 4#32, next := 31#16 },
      env := { (up puller).env with outbound := [f] } }
    s.env.during = [] ∧ s.puller = .idle ∧ s.cfg.valid = true ∧ s.flags.enabled = true ∧ s.flags.linkUp = true ∧
    aligned8 s.tx.ringPhys = true ∧ s.tx.next.toNat < s.cfg.nTx ∧ s.env.outbound = f :: [] ∧
    (s.cfg.pullReserve : Int) ≤ s.tx.numFree.toInt ∧ mssInRange s.cfg f.mss = true ∧ sgMap s f = some headerSegs ∧
    headerSegs ≠ [] ∧ (headerFix s.cfg f.tsoMode s.mem headerSegs).isSome = true ∧ Memory.wf s.mem = true ∧
    s.tx.mbuf.length = s.cfg.nTx := by decide
theorem witness_PullSendsTheQueue :
    let s := queuedFree 6#32 (up puller)
    s.env.during = [] ∧ s.puller = .idle ∧ s.cfg.valid = true ∧ s.flags.enabled = true ∧ s.flags.linkUp = true ∧
    aligned8 s.tx.ringPhys = true ∧ s.tx.next.toNat < s.cfg.nTx ∧
    (∀ f ∈ s.env.outbound, f.tsoMode = .none ∧ ∃ g rest, sgMap s f = some (g :: rest)) ∧
    (s.cfg.pullReserve : Int) + (queueNeed s s.env.outbound : Nat) ≤ s.tx.numFree.toInt := by
  refine ⟨rfl, rfl, by decide, rfl, rfl, by decide, by decide, ?_, by decide⟩
  intro f hf
  have h : f = frame64 .none := by simpa [queuedFree, queued] using hf
  subst h
  exact ⟨rfl, _, _, rfl⟩
/-- A queue stalled at the last slot, with nothing reclaimed and with a reclaim that just passes a quarter of the ring. -/
def reclaimable (hw : Half) : State :=
  { up tiny with
    tx := { (up tiny).tx with stalled := true, dirty := 31#16, next := 30#16, numFree := 1#32 }
    mac := { (up tiny).mac with regs := { (up tiny).mac.regs with txCons := hw } } }
theorem witness_ReclaimReleasesCompletedSlots :
    (reclaimable 7#16).env.during = [] ∧ (reclaimable 7#16).flags.enabled = true ∧
    tiny.valid = true ∧ (reclaimable 7#16).tx.dirty.toNat < tiny.nTx ∧
    (reclaimable 7#16).tx.mbuf.length = tiny.nTx ∧ consumerInside (reclaimable 7#16) = true ∧
    8 = Machine.dist (reclaimable 7#16).tx.dirty (hwConsumer (reclaimable 7#16)) tiny.nTx ∧
    (tiny.nTx / 4 : Nat) < (1#32 + BitVec.ofNat 32 8).toInt ∧
    consumerInside (reclaimable 31#16) = true ∧ consumerInside (reclaimable 30#16) = true := by decide
/-- An empty window, one descriptor in flight, one that is not, and the greatest window, its doorbell posted behind it. -/
theorem witness_MacTransmitStaysBehindTheDoorbell :
    let s := fetching (up tiny).mem
    let n := { s with tx := (up tiny).tx }
    let g := { s with
      tx := { s.tx with next := 31#16 }
      mac := { s.mac with regs := { s.mac.regs with tpdPidx := 0#16 } }
      posted := [{ bell := .tx, before := 31#16 }] }
    5 ≤ 16 ∧ s.mac.conf.nTx = 2 ^ 5 ∧ n.mac.conf.nTx = 2 ^ 5 ∧ g.mac.conf.nTx = 2 ^ 5 ∧ s.mac.started = true ∧
    n.mac.started = true ∧ g.mac.started = true ∧ (up tiny).mac.started = true ∧ s.mac.regs.txCons.toNat < 2 ^ 5 ∧
    (bellSeen .tx s).toNat < 2 ^ 5 ∧ (bellSeen .tx n).toNat < 2 ^ 5 ∧ bellSeen .tx g = 31#16 ∧
    Machine.dist 0#16 (bellSeen .tx (up tiny)) (2 ^ 5) = 0 ∧ Machine.dist 0#16 (bellSeen .tx s) (2 ^ 5) = 1 ∧
    slotInFlight 0#16 s = true ∧ slotInFlight 0#16 n = false ∧ Machine.dist 0#16 (bellSeen .tx g) (2 ^ 5) = 31 ∧
    ∀ j < 31, slotInFlight (inc 0#16 j (2 ^ 5)) g = true := by decide
/-- The shortest frame there is, the CRC trailer alone, with no store late and with the zeroing of the completion descriptor
late. -/
theorem witness_MacReceiveCompletesOrLosesTheFrame :
    RxSound posted ∧ TrackingSound posted ∧ posted.cfg.valid = true ∧ posted.late = [] ∧ ReceiveEnabled 4 posted ∧
    macRxReady 4 posted = true ∧ macRxReady 3 posted = false ∧ posted.cfg.layout = Layout.default ∧
    Memory.wf posted.mem = true ∧ isLate (macRrdAddr posted) posted = false ∧
    RxSound zeroing ∧ TrackingSound zeroing ∧ macRxReady 4 zeroing = true ∧ isLate (macRrdAddr zeroing) zeroing = true ∧
    Memory.wf zeroing.mem = true :=
  ⟨rxSound_of (by decide), tracking_posted, by decide, rfl, by unfold ReceiveEnabled; decide, by decide, by decide, rfl,
    by decide, by decide, rxSound_of (by decide), tracking_zeroing, by decide, by decide, by decide⟩
/-- A frame of one byte more than the first of three offered buffers holds. -/
theorem witness_MacReceiveCompletesOrLosesTheFrame_stored :
    RxSound wide ∧ TrackingSound wide ∧ macRxReady 17 wide = true ∧ wide.cfg.valid = true ∧
    wide.cfg.layout = Layout.default ∧ Memory.wf wide.mem = true ∧ buffersFor 17 wide.mac.conf.bufSize = 2 ∧
    ((List.range 2).map (rxPart wide 17)).Pairwise (fun p q => apart p q = true) :=
  ⟨rxSound_of (by decide), tracking_wide, by decide, by decide, rfl, by decide, by decide, by decide⟩
theorem witness_DrainStopsAtNotReady :
    DrainReady (up tiny) ∧ (0#24 = 0#24 ∨ isUpdated tiny (rrdFlagWord (up tiny)) = false) ∧
    isUpdated tiny (rrdFlagWord (up tiny)) = false := by
  unfold DrainReady; decide
/-- A fragmented frame, and one with an error of the drop mask. -/
theorem witness_DrainDropsBadCompletions :
    let a := withCompletion 0x00020000#32 0#32 0x80000018#32 (up tiny)
    let b := withCompletion 0x00010000#32 0#32 0xC0000010#32 (up tiny)
    DrainReady a ∧ CompletionReady a ∧ Memory.wf a.mem = true ∧ 1 < (rrdCompletion a).count ∧
    a.cfg.jumboSupport = false ∧ DrainReady b ∧ CompletionReady b ∧ Memory.wf b.mem = true ∧
    (rrdCompletion b).err &&& b.cfg.rxDropMask ≠ 0#32 := by
  unfold DrainReady CompletionReady; decide
/-- A frame that fills its buffer. -/
def filled : State := withCompletion 0x00010000#32 0x00030000#32 0x80000010#32 (up tiny)
theorem witness_DrainDeliversGoodFrames_chain :
    DrainReady filled ∧ CompletionReady filled ∧ Memory.wf filled.mem = true ∧
    ¬(1 < (rrdCompletion filled).count ∧ filled.cfg.jumboSupport = false) ∧
    (rrdCompletion filled).err &&& filled.cfg.rxDropMask = 0#32 ∧ fits (rrdCompletion filled) filled.cfg = true := by
  unfold DrainReady CompletionReady; decide
theorem witness_DrainDeliversGoodFrames_assembled :
    (∃ l t, assemble 0#16 1 12 (answers [some 0x9000#64] [] [] filled) = .chain l t) ∧
    ∃ t, assemble 0#16 1 12 { answers [none, none] [] [] filled with pool := { spare := [], refillPending := false } } =
      .lost t := ⟨⟨_, _, rfl⟩, _, rfl⟩
/-- The allocator's answers of the four tiers, in both spare modes, at the last slot and with no byte to deliver. -/
theorem witness_AcquireTriesFourTiers :
    Memory.wf (up tiny).mem = true ∧ (1#16).toNat < (up tiny).rx.mbuf.length ∧ 0 ≤ (buf tiny 1).cap ∧ 0 < 2 ^ 64 ∧
    bufRegion (buf tiny 1) ∈ (up tiny).env.live ∧
    (answers [some 0x9000#64] [] [] (up tiny)).env.alloc = some (bufAt 0x9000#64) :: [] ∧
    bufAnswerFits true tiny.rxBufSize (bufAt 0x9000#64) (answers [some 0x9000#64] [] [] (up tiny)) = true ∧
    (answers [none, some 0x9000#64] [] [] (up tiny)).env.alloc = none :: some (bufAt 0x9000#64) :: [] ∧
    bufAnswerFits false 0 (bufAt 0x9000#64) (answers [none, some 0x9000#64] [] [] (up tiny)) = true ∧
    (answers [none, none] [] [] (up tiny)).env.alloc = none :: none :: [] ∧
    (up tiny).pool.spare = buf tiny 2 :: [] ∧ tiny.spareMode = .copyIntoSpare ∧
    ({ tiny with spareMode := .swapInSpare } : Cfg).spareMode = .swapInSpare ∧
    ({ up tiny with pool := { spare := [], refillPending := false } } : State).pool.spare = [] := by decide
/-- Three buffers from the last slot on, the third for CRC bytes only. -/
theorem witness_JumboFrameBecomesAChain :
    let s := answers [some 0x9000#64, some 0x9100#64] [] [] (up jumbo)
    s.cfg.valid = true ∧ Memory.wf s.mem = true ∧ 1 < 3 ∧ 3 ≤ s.cfg.nRfd ∧ (15#16).toNat < s.cfg.nRfd ∧
    s.rx.mbuf.length = s.cfg.nRfd ∧ (∀ e ∈ s.rx.mbuf, e ≠ none) ∧ 32 ≤ 3 * s.cfg.rxBufSize ∧
    2 = (32 + s.cfg.rxBufSize - 1) / s.cfg.rxBufSize ∧
    s.env.alloc = [bufAt 0x9000#64, bufAt 0x9100#64].map some ++ [] ∧ [bufAt 0x9000#64, bufAt 0x9100#64].length = 2 ∧
    RxAnswers s (takenRegions s) [bufAt 0x9000#64, bufAt 0x9100#64] ∧
    ({ base := s.rx.rfdPhys, size := rfdBytes s.cfg } : Region) ∈ s.env.live := by
  unfold RxAnswers; decide
/-- Tiers 1, 2 and 3 in turn, from the last slot of four, and no tier for the slot after them. -/
def mixedTiers : List Tier := [.replaced (bufAt 0x9000#64), .copied (bufAt 0x9100#64), .spare]
/-- A machine whose allocator answers so, with just the one spare. -/
def failing (m : SpareMode) : State :=
  let c := { tiny with nRfd := 4, spareMode := m }
  { answers [some 0x9000#64, none, some 0x9100#64, none, none, none, none] [] [] (up c) with mem := freeRing c }
/-- 43_buffer_pool.md R227: the original of slot 3, the copy and the third buffer of the chain are freed, the spare itself where
the data was copied into it and the original of slot 1 where it was swapped in; no spare is left, and the slots hold the new
buffer, their own, and the spare if it was swapped in. -/
theorem test_assemble_lost :
    let freed (m : SpareMode) := match assemble 3#16 4 49 (failing m) with
      | .lost t => some ((newActs t (failing m)).map (fun a => match a with
          | .bufFree b => (b.phys, b.len)
          | _ => (0#64, 0)), t.rx.mbuf.map (Option.map Buf.phys), t.pool.spare)
      | _ => none
    freed .copyIntoSpare = some ([(0x80C0#64, 16), (0x9100#64, 16), (0x8100#64, 16)],
      [some 0x8000#64, some 0x8040#64, some 0x8080#64, some 0x9000#64], []) ∧
    freed .swapInSpare = some ([(0x80C0#64, 16), (0x9100#64, 16), (0x8040#64, 16)],
      [some 0x8000#64, some 0x8100#64, some 0x8080#64, some 0x9000#64], []) := by decide
/-- Every tier before the slot that fails, in both modes of the spares, and the first slot of two failing. -/
theorem witness_ChainFailureFreesTheChain :
    let e := { answers [none, none] [] [] (up jumbo) with pool := { spare := [], refillPending := false } }
    (∀ m ∈ [SpareMode.copyIntoSpare, .swapInSpare], let s := failing m
      s.cfg.valid = true ∧ 1 < 4 ∧ 4 ≤ s.cfg.nRfd ∧ (3#16).toNat < s.cfg.nRfd ∧ s.rx.mbuf.length = s.cfg.nRfd ∧
      (∀ e ∈ s.rx.mbuf, e ≠ none) ∧ mixedTiers.length < 4 ∧ mixedTiers.length * s.cfg.rxBufSize < 49 ∧
      s.env.alloc = mixedTiers.flatMap tierAnswers ++ none :: none :: [] ∧
      s.pool.spare.length = mixedTiers.count .spare ∧ ChainAnswers s mixedTiers ∧ Memory.wf s.mem = true ∧
      s.flags.ringsUp = true ∧ RxSound s ∧ RegionsSound s ∧ DescriptorsPosted s) ∧
    e.cfg.valid = true ∧ 1 < 2 ∧ 2 ≤ e.cfg.nRfd ∧ (15#16).toNat < e.cfg.nRfd ∧ e.rx.mbuf.length = e.cfg.nRfd ∧
    (∀ x ∈ e.rx.mbuf, x ≠ none) ∧ ([] : List Tier).length < 2 ∧ ([] : List Tier).length * e.cfg.rxBufSize < 1 ∧
    e.env.alloc = ([] : List Tier).flatMap tierAnswers ++ none :: none :: [] ∧
    e.pool.spare.length = ([] : List Tier).count .spare ∧ ChainAnswers e [] := by
  refine ⟨fun m hm => ?_, by decide, by decide, by decide, by decide, by decide, by decide, by decide, by decide, by decide,
    by decide, by decide, nofun⟩
  simp only [List.mem_cons, List.not_mem_nil, or_false] at hm
  obtain rfl | rfl := hm <;>
    exact ⟨by decide, by decide, by decide, by decide, by decide, by decide, by decide, by decide, by decide, by decide,
      ⟨by decide, fun a ha => by obtain rfl : a = bufAt 0x9000#64 := by simpa [mixedTiers] using ha
                                 decide⟩,
      by decide, by decide, rxSound_of (by decide), ⟨by decide, by decide, List.isSubperm_iff.1 (by decide)⟩,
      descriptorsPosted_of (by decide)⟩
/-- Both completions of a ring of two, from its last slot: an error of the drop mask, and a frame that fills its buffer. -/
def mixed : State :=
  { answers [some 0x9000#64] [] [] (up tiny) with
    rx := { (up tiny).rx with next := 1#16, free := 1#16 }
    mem := store32 (store32 (store32 (store32 [] 0x4000#64 0x00010000#32) 0x400C#64 0x80000010#32)
      0x4010#64 0x00110000#32) 0x401C#64 0xC0000010#32 }
theorem witness_BudgetCountsCompletionsConsumed :
    DrainReady mixed ∧ tiny.valid = true ∧ Memory.wf mixed.mem = true ∧
    mixed.rx.next.toNat < tiny.nRrd ∧ mixed.rx.free.toNat < tiny.nRfd ∧ (2#24).toNat ≤ tiny.nRrd ∧
    mixed.rx.mbuf.length = tiny.nRfd ∧ (∀ e ∈ mixed.rx.mbuf, e ≠ none) ∧
    (∀ j < (2#24).toNat, isUpdated tiny (load32 mixed.mem (rrdFlag mixed j)) = true ∧
      (completionAt mixed j).count = 1 ∧ (completionAt mixed j).start = inc mixed.rx.free j tiny.nRfd ∧
      tiny.crcLen ≤ (completionAt mixed j).len ∧
      (((completionAt mixed j).err &&& tiny.rxDropMask != 0#32) = false →
        0 < (completionAt mixed j).len ∧ (completionAt mixed j).len ≤ tiny.rxBufSize)) ∧
    mixed.env.alloc = [bufAt 0x9000#64].map some ++ [] ∧
    1 = (List.range (2#24).toNat).countP (fun j => !((completionAt mixed j).err &&& tiny.rxDropMask != 0#32)) ∧
    RxAnswers mixed (takenRegions mixed) [bufAt 0x9000#64] ∧ (∀ r ∈ ringRegions mixed, r ∈ mixed.env.live) ∧
    (ringRegions mixed).Pairwise (fun p q => apart p q = true) := by
  unfold DrainReady RxAnswers; decide
/-- Disabled; the allocator failing at once; the pool filled to its bound. -/
theorem witness_RefillTopsUpThePool :
    let s := { up tiny with pool := { spare := [], refillPending := true } }
    (rings tiny).flags.enabled = false ∧ s.flags.enabled = true ∧ Memory.wf s.mem = true ∧
    (answers [none] [] [] s).env.alloc = ([] : List BufAnswer).map some ++ none :: [] ∧
    ([] : List BufAnswer).length < s.cfg.spareCap - s.pool.spare.length ∧ RxAnswers s (takenRegions s) [] ∧
    (answers [some 0x9000#64] [] [] s).env.alloc = [bufAt 0x9000#64].map some ++ [] ∧
    [bufAt 0x9000#64].length = s.cfg.spareCap - s.pool.spare.length ∧ RxAnswers s (takenRegions s) [bufAt 0x9000#64] := by
  unfold RxAnswers; decide

/-- The buffers a fresh machine is given. -/
def threeBufs : List BufAnswer := [bufAt 0x100#64, bufAt 0x200#64, bufAt 0x300#64]
/-- A machine after power-on whose coming ring allocations and hardware calls succeed. -/
def ready : State :=
  answers [some 0x100#64, some 0x200#64, some 0x300#64] [some 0x1000#64, some 0x2000#64, some 0x3000#64]
    [.ok, .ok, .ok, .ok, .ok] { State.reset with cfg := tiny }
theorem witness_RingSetupBuildsTheRings :
    ready.flags.enabled = false ∧ ready.flags.ringsUp = false ∧ ready.cfg.valid = true ∧ Memory.wf ready.mem = true ∧
    SetupAnswers ready ready.env.live 0x1000#64 0x2000#64 0x3000#64 [] threeBufs [] := by
  unfold SetupAnswers RxAnswers; decide
/-- A setup whose one spare buffer cannot be allocated. -/
def shortOfSpares : State :=
  answers [some 0x100#64, some 0x200#64, none] [some 0x1000#64, some 0x2000#64, some 0x3000#64] [] ready
theorem witness_RingSetupBuildsTheRings_noSpare :
    shortOfSpares.flags.enabled = false ∧ shortOfSpares.flags.ringsUp = false ∧ shortOfSpares.cfg.valid = true ∧
    Memory.wf shortOfSpares.mem = true ∧
    SetupAnswers shortOfSpares shortOfSpares.env.live 0x1000#64 0x2000#64 0x3000#64 [] [bufAt 0x100#64, bufAt 0x200#64] [] := by
  unfold SetupAnswers RxAnswers; decide
/-- 43_buffer_pool.md R228: it succeeds all the same. -/
theorem test_ringSetup_noSpare :
    see .ringSetup shortOfSpares (fun t => (t.result, t.flags.ringsUp, t.rx.mbuf.length, t.pool.spare)) =
      some (.ok, true, 2, []) := by decide
/-- Each of the three regions fails; the last posted buffer fails. -/
theorem witness_RingSetupFailureUnwinds :
    let last := answers [some 0x100#64, none] [some 0x1000#64, some 0x2000#64, some 0x3000#64] [] ready
    ready.flags.enabled = false ∧ ready.flags.ringsUp = false ∧
    freshRegions tiny.ringAlign (ringsAt tiny 0x1000#64 0x2000#64 0x3000#64) ready.env.live = true ∧
    (answers [] [none] [] ready).env.dma = none :: [] ∧
    (answers [] [some 0x1000#64, none] [] ready).env.dma = some 0x1000#64 :: none :: [] ∧
    (answers [] [some 0x1000#64, some 0x2000#64, none] [] ready).env.dma =
      some 0x1000#64 :: some 0x2000#64 :: none :: [] ∧
    last.env.dma = some 0x1000#64 :: some 0x2000#64 :: some 0x3000#64 :: [] ∧
    last.env.alloc = [bufAt 0x100#64].map some ++ none :: [] ∧ [bufAt 0x100#64].length < last.cfg.nRfd ∧
    RxAnswers last ((ringsAt tiny 0x1000#64 0x2000#64 0x3000#64).reverse ++ last.env.live) [bufAt 0x100#64] := by
  unfold RxAnswers; decide
theorem witness_TxClearEmptiesTheTransmitSide :
    (rings tiny).flags.ringsUp = true ∧ (rings tiny).mac.started = false ∧ Memory.wf (rings tiny).mem = true ∧
    tiny.valid = true ∧ (rings tiny).tx.ringPhys.toNat + txBytes tiny ≤ 2 ^ 64 := by decide
theorem witness_RxResetClearsTheCompletionRing :
    ((rings jumbo).flags.ringsUp = true ∧ (rings jumbo).mac.started = false ∧ Memory.wf (rings jumbo).mem = true ∧
      jumbo.valid = true ∧ (rings jumbo).rx.rrdPhys.toNat + rrdBytes jumbo ≤ 2 ^ 64) ∧ FencesPosted (rings jumbo) :=
  ⟨by decide, fun _ h => nomatch h⟩
theorem witness_RingTeardownReleasesEverything :
    (rings tiny).flags.enabled = false ∧ (rings tiny).flags.ringsUp = true ∧ (rings tiny).mac.started = false ∧
    Memory.wf (rings tiny).mem = true := by decide
theorem witness_EnableEndsWithTheLinkDown :
    ready.flags.enabled = false ∧ ready.flags.ringsUp = false ∧ ready.cfg.valid = true ∧ Memory.wf ready.mem = true ∧
    SetupAnswers ready ready.env.live 0x1000#64 0x2000#64 0x3000#64 [] threeBufs [] ∧
    ready.env.hw = .ok :: .ok :: .ok :: .ok :: [.ok] := by
  unfold SetupAnswers RxAnswers; decide
/-- The first and the last of the four hardware calls time out. -/
theorem witness_EnableFailureHoldsNothing :
    let s (k : Nat) := { ready with env := { ready.env with hw := List.replicate k .ok ++ .timeout DeviceRegs.zero :: [] } }
    (up tiny).flags.enabled = true ∧ (s 0).flags.enabled = false ∧ (s 0).flags.ringsUp = false ∧
    SetupAnswers (s 0) (s 0).env.live 0x1000#64 0x2000#64 0x3000#64 [] threeBufs [] ∧ 0 < 4 ∧
    (s 0).env.hw = List.replicate 0 .ok ++ .timeout DeviceRegs.zero :: [] ∧
    SetupAnswers (s 3) (s 3).env.live 0x1000#64 0x2000#64 0x3000#64 [] threeBufs [] ∧ 3 < 4 ∧
    (s 3).env.hw = List.replicate 3 .ok ++ .timeout DeviceRegs.zero :: [] := by
  unfold SetupAnswers RxAnswers; decide
theorem witness_DisableReleasesEverything :
    (rings tiny).flags.enabled = false ∧ (queued (up tiny)).flags.enabled = true ∧ (queued (up tiny)).env.during = [] ∧
    (answers [] [] [.timeout DeviceRegs.zero] (queued (up tiny))).env.hw = .timeout DeviceRegs.zero :: [] ∧
    (answers [] [] [.ok] (queued (up tiny))).env.hw = .ok :: [] ∧ Memory.wf (queued (up tiny)).mem = true := by decide
theorem witness_ResetRebuildsTheInterface :
    let s := { queued (up tiny) with
      env := { ready.env with outbound := [frame64 .none], nextBuf := 3, live := (up tiny).env.live } }
    s.flags.enabled = true ∧ s.env.during = [] ∧ s.cfg.valid = true ∧ Memory.wf s.mem = true ∧
    SetupAnswers s (s.env.live.diff (freedRegions s)) 0x1000#64 0x2000#64 0x3000#64 [] threeBufs [] ∧
    s.env.hw = .ok :: .ok :: .ok :: .ok :: .ok :: [] := by
  unfold SetupAnswers RxAnswers; decide
theorem witness_LinkUpOpensTheGate :
    let s := { answers [] [] [.ok] (down tiny) with linkArg := gigabit }
    s.env.during = [] ∧ s.flags.enabled = true ∧ s.flags.linkUp = false ∧ s.linkArg.valid = true ∧
    s.env.hw = .ok :: [] := by decide
theorem witness_LinkDownClearsTheRings :
    let s := answers [] [] [.ok, .ok, .ok] (queued (up tiny))
    s.env.during = [] ∧ s.flags.enabled = true ∧ s.env.hw = .ok :: .ok :: .ok :: [] ∧ Memory.wf s.mem = true ∧
    (ringRegions s).Pairwise (fun p q => apart p q = true) := by decide
theorem witness_LinkTimeoutDisables :
    let s := { answers [] [] [.timeout DeviceRegs.zero] (down tiny) with linkArg := gigabit }
    s.env.during = [] ∧ s.late = [] ∧ s.env.slowBus = false ∧
    s.flags.enabled = true ∧ s.flags.linkUp = false ∧ s.linkArg.valid = true ∧
    s.env.hw = .timeout DeviceRegs.zero :: [] ∧ 0 < 3 ∧
    s.env.hw = List.replicate 0 .ok ++ .timeout DeviceRegs.zero :: [] ∧ 2 < 3 ∧
    (answers [] [] [.ok, .ok, .timeout DeviceRegs.zero] (up tiny)).env.hw =
      List.replicate 2 .ok ++ .timeout DeviceRegs.zero :: [] := by decide
theorem witness_MediumSelectRecordsAndAdvertises :
    mediumLegal 0x03#5 = false ∧ mediumLegal 0x0F#5 = true ∧ (rings tiny).flags.enabled = false ∧
    (down tiny).flags.enabled = true ∧ (down tiny).flags.linkUp = false ∧
    (answers [] [] [.ok] (down tiny)).env.hw = .ok :: [] ∧
    (answers [] [] [.timeout DeviceRegs.zero] (down tiny)).env.hw = .timeout DeviceRegs.zero :: [] ∧
    (up tiny).flags.enabled = true ∧ (up tiny).flags.linkUp = true ∧
    (answers [] [] [.ok, .ok, .ok, .ok] (up tiny)).env.hw = .ok :: .ok :: .ok :: .ok :: [] := by decide
/-- Not armed; progress; idle; a stalled tick below the threshold and at it. -/
theorem witness_WatchdogTickCases :
    let s := { up tiny with tx := { (up tiny).tx with numFree := 31#32 } }
    let t := { s with wdt := { s.wdt with stallTicks := 1 } }
    ¬((down tiny).flags.enabled = true ∧ (down tiny).flags.wdtArmed = true) ∧
    s.flags.enabled = true ∧ s.flags.wdtArmed = true ∧
    ¬((up tiny).tx.doneCount = (up tiny).wdt.lastDone ∧ (up tiny).tx.numFree.toInt < (up tiny).cfg.nTx) ∧
    s.tx.doneCount = s.wdt.lastDone ∧ s.tx.numFree.toInt < s.cfg.nTx ∧ s.wdt.stallTicks + 1 ≠ s.cfg.wdtStallThreshold ∧
    t.flags.enabled = true ∧ t.flags.wdtArmed = true ∧ t.tx.doneCount = t.wdt.lastDone ∧
    t.tx.numFree.toInt < t.cfg.nTx ∧ t.wdt.stallTicks + 1 = t.cfg.wdtStallThreshold := by decide
theorem witness_DeadlockFiresAtTheThreshold :
    let s := { up tiny with tx := { (up tiny).tx with numFree := 31#32 } }
    s.cfg.valid = true ∧ s.flags.enabled = true ∧ s.flags.wdtArmed = true ∧
    s.wdt = { lastDone := s.tx.doneCount, stallTicks := 0 } ∧ s.tx.numFree.toInt < s.cfg.nTx ∧ 0 < 1 ∧
    1 < s.cfg.wdtStallThreshold := by decide

/-- An enabled machine whose `ISR` reads `w` and whose PHY will answer `a`. -/
def pendingStatus (w : Word) (a : Option Link) (hw : List HwAnswer) : State :=
  { up tiny with
    mac := { (up tiny).mac with regs := { (up tiny).mac.regs with isr := w } }
    env := { (up tiny).env with phy := [a], hw := hw } }
/-- An alert alone, engine bits in poll mode, and a source that arrives in the window. -/
theorem witness_DispatchAcknowledgesWhatItRead :
    let s := pendingStatus 0x8#32 none []
    let p := { pendingStatus 0x18000#32 none [] with flags := { (up tiny).flags with pollMode := true } }
    let l := { up tiny with env := { (up tiny).env with during := [[.mac (.status 0x8000#32)]] } }
    (rings tiny).flags.enabled = false ∧ s.flags.enabled = true ∧ s.env.during = [] ∧
    s.mac.regs.isr &&& s.cfg.isr.fatal = 0#32 ∧ s.mac.regs.isr &&& s.cfg.isr.link = 0#32 ∧
    s.mac.regs.isr &&& s.cfg.isr.tx = 0#32 ∧ s.mac.regs.isr &&& s.cfg.isr.rx = 0#32 ∧ p.flags.pollMode = true ∧
    p.mac.regs.isr &&& p.cfg.isr.fatal = 0#32 ∧ p.mac.regs.isr &&& p.cfg.isr.link = 0#32 ∧
    l.env.during = [[.mac (.status 0x8000#32)]] ∧ l.mac.regs.isr = 0#32 ∧ 0x8000#32 &&& l.cfg.isr.dis = 0#32 := by decide
theorem witness_FatalInterruptResets :
    let s := pendingStatus 0x18200#32 none []
    s.flags.enabled = true ∧ s.env.during = [] ∧ s.mac.regs.isr &&& s.cfg.isr.fatal ≠ 0#32 := by decide
/-- The states a dispatch of `s` goes through, as `DispatchServesTheEngines` names them. -/
def DispatchPath (s : State) : Prop :=
  s.cfg.valid = true ∧ s.flags.enabled = true ∧ s.env.during = [] ∧ s.mac.regs.isr &&& s.cfg.isr.fatal = 0#32 ∧
  ∃ u v w x : State,
    (if s.flags.pollMode = false ∧ s.mac.regs.isr &&& s.cfg.isr.tx ≠ 0#32
      then exec .txReclaim (logAlert s.mac.regs.isr (dispatchEntry s)) = .next u
      else u = logAlert s.mac.regs.isr (dispatchEntry s)) ∧
    (if s.flags.pollMode = false ∧ s.mac.regs.isr &&& s.cfg.isr.rx ≠ 0#32
      then exec (.rxDrain (BitVec.ofNat 24 s.cfg.nRrd)) u = .next v ∧
        w = { v with trace := (if 0 < countOf v.result then [.flushBatch] else []) ++ v.trace }
      else w = u) ∧
    (if s.mac.regs.isr &&& s.cfg.isr.link = 0#32 then x = w else linkEval w = .next x)
/-- Both engines; the transmit engine alone; the receive engine beside an alert; the transmit engine beside the link; in poll
mode. -/
theorem witness_DispatchServesTheEngines :
    DispatchPath (pendingStatus 0x18000#32 none []) ∧ DispatchPath (pendingStatus 0x8000#32 none []) ∧
    DispatchPath (pendingStatus 0x10008#32 none []) ∧ DispatchPath (pendingStatus 0x9000#32 (some gigabit) []) ∧
    DispatchPath { pendingStatus 0x18000#32 none [] with flags := { (up tiny).flags with pollMode := true } } :=
  ⟨⟨by decide, rfl, rfl, by decide, _, _, _, _, (if_pos (by decide)).mpr rfl,
      (if_pos (by decide)).mpr ⟨rfl, rfl⟩, (if_pos (by decide)).mpr rfl⟩,
    ⟨by decide, rfl, rfl, by decide, _, State.reset, _, _, (if_pos (by decide)).mpr rfl,
      (if_neg (by decide)).mpr rfl, (if_pos (by decide)).mpr rfl⟩,
    ⟨by decide, rfl, rfl, by decide, _, _, _, _, (if_neg (by decide)).mpr rfl,
      (if_pos (by decide)).mpr ⟨rfl, rfl⟩, (if_pos (by decide)).mpr rfl⟩,
    ⟨by decide, rfl, rfl, by decide, _, State.reset, _, _, (if_pos (by decide)).mpr rfl,
      (if_neg (by decide)).mpr rfl, (if_neg (by decide)).mpr rfl⟩,
    ⟨by decide, rfl, rfl, by decide, _, State.reset, _, _, (if_neg (by decide)).mpr rfl,
      (if_neg (by decide)).mpr rfl, (if_pos (by decide)).mpr rfl⟩⟩
/-- The four answers of the PHY that matter. -/
theorem witness_LinkChangeIsEvaluated :
    let p : Link := { gigabit with speed := .s100 }
    let s := pendingStatus 0x1000#32 (some gigabit) []
    let d := { pendingStatus 0x1000#32 (some p) [.ok] with flags := (down tiny).flags }
    let lost := pendingStatus 0x1000#32 none [.ok, .ok, .ok]
    let new := pendingStatus 0x1000#32 (some p) [.ok, .ok, .ok, .ok]
    s.flags.enabled = true ∧ s.env.during = [] ∧ s.mac.regs.isr &&& s.cfg.isr.link ≠ 0#32 ∧
    s.mac.regs.isr &&& s.cfg.isr.fatal = 0#32 ∧ s.mac.regs.isr &&& s.cfg.isr.alert = 0#32 ∧
    s.mac.regs.isr &&& s.cfg.isr.tx = 0#32 ∧ s.mac.regs.isr &&& s.cfg.isr.rx = 0#32 ∧
    s.env.phy = some gigabit :: [] ∧ gigabit.valid = true ∧ gigabit = s.link ∧ s.flags.linkUp = true ∧
    d.env.phy = some p :: [] ∧ p.valid = true ∧ d.flags.linkUp = false ∧ d.env.hw = .ok :: [] ∧
    lost.env.phy = none :: [] ∧ lost.env.hw = .ok :: .ok :: .ok :: [] ∧ p ≠ new.link ∧
    new.env.hw = .ok :: .ok :: .ok :: .ok :: [] := by decide
theorem witness_PollOperations :
    let s := { up tiny with flags := { (up tiny).flags with pollMode := true } }
    ¬((up tiny).flags.enabled = true ∧ (up tiny).flags.pollMode = true) ∧ s.flags.enabled = true ∧
    s.flags.pollMode = true ∧ DrainReady s ∧ hwConsumer s = s.tx.dirty ∧ s.tx.stalled = false ∧
    isUpdated s.cfg (rrdFlagWord s) = false := by
  unfold DrainReady; decide
theorem witness_ModeTableRefusals :
    mode State.reset = .disabled ∧ mode (up tiny) = .up ∧ mode (down tiny) ≠ .disabled ∧
    State.reset.flags.ringsUp = false ∧ (rings tiny).flags.ringsUp = true ∧ (rings tiny).flags.enabled = false := by decide
/-- One state for each situation; the length is one byte too few, and one byte too many for its buffer. -/
theorem witness_SituationsWithoutMeaningStop :
    let a := withCompletion 0x00000000#32 0#32 0x80000010#32 (up jumbo)
    let b := withCompletion 0x00110000#32 0#32 0x80000010#32 (up jumbo)
    let c := withCompletion 0x00010000#32 0#32 0x80000003#32 (up jumbo)
    let d := withCompletion 0x00010000#32 0#32 0x80000011#32 (up jumbo)
    (frame64 .tso4).tsoMode ≠ .tso6 ∧ mssInRange tiny 0#16 = false ∧ mssInRange tiny 8192#16 = false ∧
    consumerInside { up tiny with mac := { (up tiny).mac with regs := { (up tiny).mac.regs with txCons := 1#16 } } } =
      false ∧
    DrainReady a ∧ isUpdated a.cfg (rrdFlagWord a) = true ∧ (rrdCompletion a).count = 0 ∧
    DrainReady b ∧ isUpdated b.cfg (rrdFlagWord b) = true ∧ (rrdCompletion b).count ≠ 0 ∧
    (rrdCompletion b).start ≠ b.rx.free ∧
    DrainReady c ∧ isUpdated c.cfg (rrdFlagWord c) = true ∧ (rrdCompletion c).count ≠ 0 ∧
    (rrdCompletion c).start = c.rx.free ∧ (rrdCompletion c).len < c.cfg.crcLen ∧
    DrainReady d ∧ isUpdated d.cfg (rrdFlagWord d) = true ∧ contractProblem (rrdCompletion d) d = none ∧
    d.cfg.jumboSupport = true ∧ (rrdCompletion d).err &&& d.cfg.rxDropMask = 0#32 ∧
    fits (rrdCompletion d) d.cfg = false ∧
    (down tiny).flags.enabled = true ∧ (down tiny).flags.linkUp = false ∧ (down tiny).linkArg.valid = false ∧
    (up tiny).flags.ringsUp = true ∧ (up tiny).mac.started = true ∧
    ({ rings tiny with mac := (up tiny).mac } : State).flags.enabled = false := by
  unfold DrainReady; decide
/-- Frames one byte too short for each offset a fix-up touches, and a MAC that never stops. -/
theorem witness_SituationsWithoutMeaningStop_more :
    let f (n : Half) (m : TsoMode) :=
      { up tiny with mem := header4, frameArg := { frame64 m with segs := some [⟨0x100#64, n⟩] } }
    let g (n : Half) : List Seg := [⟨0x100#64, n⟩]
    mssInRange tiny (f 17#16 .tso4).frameArg.mss = true ∧ (up tiny).flags.enabled = true ∧
    (up tiny).flags.linkUp = true ∧ sgMap (f 17#16 .tso4) (f 17#16 .tso4).frameArg = some (g 17#16) ∧
    (tiny.txSafetyMargin : Int) ≤ (up tiny).tx.numFree.toInt - (descNeed .tso6 (g 17#16) : Nat) ∧
    (up tiny).puller = .idle ∧ aligned8 (up tiny).tx.ringPhys = true ∧ frameAddr (g 17#16) 17 = none ∧
    sgMap (f 51#16 .tso4) (f 51#16 .tso4).frameArg = some (g 51#16) ∧ frameByte header4 (g 51#16) 14 = some 0x45#8 ∧
    frameAddr (g 51#16) (14 + 4 * ((0x45#8).toNat % 16) + 17) = none ∧
    sgMap (f 19#16 .tso6) (f 19#16 .tso6).frameArg = some (g 19#16) ∧ frameAddr (g 19#16) 19 = none ∧
    sgMap (f 71#16 .tso6) (f 71#16 .tso6).frameArg = some (g 71#16) ∧ frameAddr (g 71#16) (tiny.minL4OffV6 + 17) = none ∧
    aligned8 (up tiny).rx.rrdPhys = true ∧ aligned8 (up tiny).rx.rfdPhys = true ∧ (up tiny).env.during = [] ∧
    (up tiny).mac.started = true ∧ isUpdated tiny (rrdFlagWord (up tiny)) = false := by decide

theorem witness_StepKeepsMemoryCanonical : MemorySound running ∧ ∃ t, step running = .next t :=
  ⟨by unfold MemorySound; decide, _, rfl⟩
theorem witness_StepKeepsRingConservation : TxSound running ∧ ∃ t, step running = .next t :=
  ⟨by unfold TxSound; decide, _, rfl⟩
/-- With the link up, and with the link down. -/
theorem witness_StepKeepsTheModeTable :
    (ModeSound running ∧ ∃ t, step running = .next t) ∧ ModeSound (down tiny) ∧ ∃ t, step (down tiny) = .next t :=
  ⟨⟨by unfold ModeSound; decide, _, rfl⟩, by unfold ModeSound; decide, _, rfl⟩
theorem witness_StepKeepsBuffersPostedAndOwnedOnce : RxSound running ∧ OwnedOnce running ∧ ∃ t, step running = .next t :=
  ⟨rxSound_of (by decide), by unfold OwnedOnce; decide, _, rfl⟩
/-- A machine with a frame in flight that is not released, and one whose stores to both receive rings are late; the frame has a
byte outside what the core holds. -/
theorem witness_StepKeepsTheTrackingInvariant :
    TxSound posted ∧ ModeSound posted ∧ RxSound posted ∧ MemorySound posted ∧ TrackingSound posted ∧
    (∃ t, step posted = .next t ∧ t.foreign = posted.foreign ∧ newActs t posted = []) ∧ frame64 .none ∈ inFlight posted.tx.mbuf ∧
    (∀ q ∈ coreRegions posted, inRange q.base q.size 0x12345000#64 = false) ∧
    TxSound zeroing ∧ ModeSound zeroing ∧ RxSound zeroing ∧ MemorySound zeroing ∧ TrackingSound zeroing ∧
    ∃ t, step zeroing = .next t ∧ t.foreign = zeroing.foreign :=
  ⟨by unfold TxSound; decide, by unfold ModeSound; decide, rxSound_of (by decide), by unfold MemorySound; decide,
    tracking_posted, ⟨_, rfl, rfl, by decide⟩, by decide, by decide, by unfold TxSound; decide, by unfold ModeSound; decide,
    rxSound_of (by decide), by unfold MemorySound; decide, tracking_zeroing, _, rfl, rfl⟩
/-- A step of each kind, the PULLER's with a frame to drop at the gate; each operation that counts, at a state where it does; a
drop counted inside another operation in the pull model; and an operation that counts nothing. -/
theorem witness_LongLivedStateHasItsWriters :
    let drop : State := { down puller with
      puller := .looping, pending := [.pull], env := { (down puller).env with outbound := [frame64 .none] } }
    let tick : State := { up tiny with
      tx := { (up tiny).tx with numFree := 31#32 }, wdt := { lastDone := 0#32, stallTicks := 1 } }
    let stats (i : Instr) (s : State) := see i s State.stats
    (∃ t, step running = .next t) ∧ (∃ t, step { running with pending := [.offer (frame64 .none)] } = .next t) ∧
    (∃ t, step drop = .next t) ∧
    (match finishPull drop with
      | .next t => some t.stats
      | _ => none) = some { Stats.zero with txDrop := 1 } ∧
    stats .txqPlain { up tiny with frameArg := frame64 .none, tx := { (up tiny).tx with numFree := 3#32 } } =
      some { Stats.zero with txStall := 1 } ∧
    stats .txPull drop = some { Stats.zero with txDrop := 1 } ∧
    stats (.rxDrain 1#24) (withCompletion 0x00020000#32 0#32 0x80000018#32 (up tiny)) =
      some { Stats.zero with rxLenErr := 1 } ∧
    stats .wdtTick (answers [] [none] [.ok] tick) = some { Stats.zero with resetCount := 1 } ∧
    stats .linkDown (answers [] [] [.ok, .ok, .ok] { halfWay [List.replicate 8 .pull] with tx := (up puller).tx }) =
      some { Stats.zero with txDrop := 2 } ∧
    stats (.mediumSelect 0x0F#5) (rings tiny) = some Stats.zero := by
  refine ⟨⟨_, rfl⟩, ⟨_, rfl⟩, ⟨_, rfl⟩, ?_⟩
  decide
theorem witness_NoDoorbellWhileTheLinkIsDown :
    NoPull (queued (down tiny)) ∧ (queued (down tiny)).cfg.regmap.valid = true ∧
    (queued (down tiny)).flags.linkUp = false ∧
    ∃ t, exec .txPull (queued (down tiny)) = .next t :=
  ⟨(fun _ h => nomatch h), by decide, rfl, _, rfl⟩

end Slice0
end

section
/-! SUPPORT. The ledger of a state: its long-lived fields and what its record of acts shows of the statistics. One equation per
shared operation that leaves the ledger as it was, and one relation, `Writes`, for those that enter something in it. -/

namespace Sys2Proof.Machine

/-! ### The ledger -/

/-- The statistics by name (10_state.md R36). -/
inductive Stat where
  | txDrop | txResErr | txStall | rxLenErr | rxErr | rxResErr | rxDelivered | resetCount
  deriving DecidableEq

/-- The counter of a statistic. -/
def Stat.value : Stat → Stats → Nat
  | .txDrop => Stats.txDrop
  | .txResErr => Stats.txResErr
  | .txStall => Stats.txStall
  | .rxLenErr => Stats.rxLenErr
  | .rxErr => Stats.rxErr
  | .rxResErr => Stats.rxResErr
  | .rxDelivered => Stats.rxDelivered
  | .resetCount => Stats.resetCount

/-- The acts a statistic counts, as `StatsCountActs` pairs them (R36, 60_exceptions.md R240). -/
def Stat.acts : Stat → Act → Bool
  | .txDrop => isRaised .txDropGate
  | .txResErr => isRaised .txResource
  | .txStall => isRaised .txStall
  | .rxLenErr => isRaised .rxLength
  | .rxErr => isRaised .rxError
  | .rxResErr => isRaised .rxResource
  | .rxDelivered => isInbound
  | .resetCount => isResetRaised

/-- The statistic an event counts in (R240). -/
def statOfEvent : CoreEvent → Option Stat
  | .txDropGate => some .txDrop
  | .txResource => some .txResErr
  | .txStall => some .txStall
  | .rxLength => some .rxLenErr
  | .rxError => some .rxErr
  | .rxResource => some .rxResErr
  | .hwDeadlock => some .resetCount
  | .hwFatal => some .resetCount
  | .cfgSetupFail => none
  | .cfgTimeout => none
  | .cfgInvalidMedium => none

/-- The statistic an act counts in. -/
def statOfAct : Act → Option Stat
  | .raised e => statOfEvent e
  | .inbound _ _ _ _ => some .rxDelivered
  | _ => none

@[simp] theorem statOfEvent_eq :
    statOfEvent .txDropGate = some .txDrop ∧ statOfEvent .txResource = some .txResErr ∧
    statOfEvent .txStall = some .txStall ∧ statOfEvent .rxLength = some .rxLenErr ∧
    statOfEvent .rxError = some .rxErr ∧ statOfEvent .rxResource = some .rxResErr ∧
    statOfEvent .hwDeadlock = some .resetCount ∧ statOfEvent .hwFatal = some .resetCount ∧
    statOfEvent .cfgSetupFail = none ∧ statOfEvent .cfgTimeout = none ∧ statOfEvent .cfgInvalidMedium = none := by
  simp only [statOfEvent, and_self]

/-- Every act but a raised event and a delivered frame counts in no statistic. -/
@[simp] theorem statOfAct_eq :
    (∀ e, statOfAct (.raised e) = statOfEvent e) ∧
    (∀ l n c v, statOfAct (.inbound l n c v) = some .rxDelivered) ∧
    (∀ o w v, statOfAct (.regWrite o w v) = none) ∧ statOfAct .regFlush = none ∧ statOfAct .fence = none ∧
    statOfAct .flushBatch = none ∧ statOfAct .signalResumable = none ∧ (∀ f b, statOfAct (.release f b) = none) ∧
    (∀ f, statOfAct (.sgUnmap f) = none) ∧ (∀ b, statOfAct (.bufFree b) = none) ∧
    (∀ a n, statOfAct (.dmaFree a n) = none) ∧ (∀ t, statOfAct (.log t) = none) ∧
    statOfAct .refillScheduled = none ∧ (∀ c b, statOfAct (.hw c b) = none) ∧
    ∀ i d l, statOfAct (.macFetch i d l) = none := by
  simp only [statOfAct, implies_true, and_self]

theorem acts_eq (c : Stat) (a : Act) : c.acts a = decide (statOfAct a = some c) := by
  cases a with
  | raised e => cases e <;> cases c <;> rfl
  | _ => cases c <;> rfl

theorem stats_ext {a b : Stats} (h : ∀ c : Stat, c.value a = c.value b) : a = b := by
  cases a
  cases b
  rw [Stats.mk.injEq]
  exact ⟨h .txDrop, h .txResErr, h .txStall, h .rxLenErr, h .rxErr, h .rxResErr, h .rxDelivered, h .resetCount⟩

/-- What O59 speaks of: the long-lived fields, what the record of acts shows of each statistic, and what other agents will do
inside the operation. -/
structure Ledger where
  cfg : Cfg
  stats : Stat → Nat
  shown : Stat → Nat
  medium : BitVec 5
  doneCount : Word
  during : List (List MidStep)

/-- The ledger of a state. -/
def ledger (s : State) : Ledger where
  cfg := s.cfg
  stats := fun c => c.value s.stats
  shown := fun c => countActs c.acts s
  medium := s.medium
  doneCount := s.tx.doneCount
  during := s.env.during

/-- One more counted, in the statistic and in the record, where there is a statistic to count in. -/
def Ledger.count : Option Stat → Ledger → Ledger
  | none, k => k
  | some c, k => { k with
      stats := fun d => k.stats d + if c = d then 1 else 0
      shown := fun d => k.shown d + if c = d then 1 else 0 }

@[simp] theorem Ledger.count_none (k : Ledger) : k.count none = k := rfl

/-! ### State updates -/

@[simp] theorem ledger_setters (s : State) :
    (∀ v, ledger (s.setRx v) = ledger s) ∧ (∀ v, ledger (s.setPool v) = ledger s) ∧
    (∀ v, ledger (s.setFlags v) = ledger s) ∧ (∀ v, ledger (s.setWdt v) = ledger s) ∧
    (∀ v, ledger (s.setLink v) = ledger s) ∧ (∀ v, ledger (s.setIntrMask v) = ledger s) ∧
    (∀ v, ledger (s.setMac v) = ledger s) ∧ (∀ v, ledger (s.setMem v) = ledger s) ∧
    (∀ v, ledger (s.setLate v) = ledger s) ∧ (∀ v, ledger (s.setPosted v) = ledger s) ∧
    (∀ v, ledger (s.setPuller v) = ledger s) ∧ (∀ v, ledger (s.setForeign v) = ledger s) ∧
    (∀ v, ledger (s.setPending v) = ledger s) ∧ ∀ f p, ledger (s.setArgs f p) = ledger s := by
  refine ⟨?_, ?_, ?_, ?_, ?_, ?_, ?_, ?_, ?_, ?_, ?_, ?_, ?_, ?_⟩ <;> intros <;> rfl

@[simp] theorem ledger_setResult (s : State) (r : Result) : ledger (s.setResult r) = ledger s := rfl

@[simp] theorem ledger_setTx {s : State} {v : TxSide} (h : v.doneCount = s.tx.doneCount) : ledger (s.setTx v) = ledger s :=
  congrArg (fun n => { ledger s with doneCount := n }) h

@[simp] theorem ledger_setEnv {s : State} {v : Env} (h : v.during = s.env.during) : ledger (s.setEnv v) = ledger s :=
  congrArg (fun l => { ledger s with during := l }) h

theorem countActs_emit (p : Act → Bool) (a : Act) (s : State) :
    countActs p (s.emit a) = countActs p s + if p a then 1 else 0 := by
  simp only [countActs, State.emit_trace, List.filter_cons]
  split <;> simp

@[simp] theorem ledger_emit {a : Act} (h : statOfAct a = none) (s : State) : ledger (s.emit a) = ledger s := by
  simp [ledger, countActs_emit, acts_eq, h]

/-- An act recorded together with its statistic (R36, R240). -/
theorem ledger_setStats_emit {a : Act} {s : State} {v : Stats}
    (hv : ∀ c : Stat, c.value v = c.value s.stats + if statOfAct a = some c then 1 else 0) :
    ledger ((s.emit a).setStats v) = (ledger s).count (statOfAct a) := by
  have hs (c : Stat) : countActs c.acts ((s.emit a).setStats v) = countActs c.acts (s.emit a) := rfl
  cases h : statOfAct a <;> simp [ledger, Ledger.count, hs, hv, countActs_emit, acts_eq, h]

@[simp] theorem ledger_raise (e : CoreEvent) (s : State) : ledger (raise e s) = (ledger s).count (statOfEvent e) :=
  ledger_setStats_emit (a := .raised e) fun c => by cases e <;> cases c <;> rfl

@[simp] theorem ledger_deliver (k : Completion) (l : List Buf) (s : State) :
    ledger (deliver k l s) = (ledger s).count (some .rxDelivered) :=
  ledger_setStats_emit (a := .inbound (linkChain l) (k.len - s.cfg.crcLen) _ _) (s := s)
    (v := { s.stats with rxDelivered := s.stats.rxDelivered + 1 }) fun c => by cases c <;> rfl

end Sys2Proof.Machine
end

section
/-! SUPPORT. The shared operations that leave the ledger as it was, in the order of the model's files. -/

namespace Sys2Proof.Machine

/-! ### Registers, the environment's answers, releases -/

@[simp] theorem ledger_reach (n : Nat) (s : State) : ledger (reach n s) = ledger s := by simp [reach]

@[simp] theorem ledger_regWrite (r : Reg) (v : Word) (s : State) : ledger (regWrite r v s) = ledger s := by
  cases r <;> simp [regWrite, postReg, postBell]

@[simp] theorem ledger_regFlush (s : State) : ledger (regFlush s) = ledger s := by simp [regFlush, reachAll]

@[simp] theorem ledger_fence (s : State) : ledger (fence s) = ledger s := by simp [fence]

@[simp] theorem ledger_holdLate (l : List Region) (s : State) : ledger (holdLate l s) = ledger s := by simp [holdLate]

@[simp] theorem ledger_log (t : LogText) (s : State) : ledger (log t s) = ledger s := by simp [log]

@[simp] theorem ledger_takeRegion (r : Region) (s : State) : ledger (takeRegion r s) = ledger s := by simp [takeRegion]

@[simp] theorem ledger_dropRegion (r : Region) (s : State) : ledger (dropRegion r s) = ledger s := by simp [dropRegion]

@[simp] theorem ledger_hwReadLink (s : State) : ledger (hwReadLink s).2 = ledger s := by
  unfold hwReadLink
  split <;> simp [drawn]

@[simp] theorem ledger_bufAlloc (z : Bool) (n : Nat) (s : State) : ledger (bufAlloc z n s).2 = ledger s := by
  obtain ⟨e, he, h⟩ := bufAlloc_cases z n s
  have hd : e.during = s.env.during := by rw [he]
  obtain h | ⟨a, -, h⟩ := h <;> simp [h, takeBuf, hd]

@[simp] theorem ledger_rxBufAlloc (s : State) : ledger (rxBufAlloc s).2 = ledger s := ledger_bufAlloc _ _ _

@[simp] theorem ledger_dmaAlloc (n : Nat) (s : State) : ledger (dmaAlloc n s).2 = ledger s := by
  obtain ⟨e, he, h⟩ := dmaAlloc_cases n s
  have hd : e.during = s.env.during := by rw [he]
  obtain h | ⟨p, -, h⟩ := h <;> simp [h, hd]

@[simp] theorem ledger_beforeCall (c : HwCall) (s : State) : ledger (beforeCall c s) = ledger s := by
  cases c <;> simp [beforeCall, reachAll]

@[simp] theorem ledger_hwCall (c : HwCall) (s : State) : ledger (hwCall c s).2 = ledger s := by
  obtain ⟨e, he, h⟩ := hwCall_cases c s
  have hd : e.during = s.env.during := by rw [he]
  obtain h | ⟨d, h⟩ := h <;> simp [h, hd]

@[simp] theorem ledger_hwCalls (l : List HwCall) (s : State) : ledger (hwCalls l s).2 = ledger s := by
  induction l generalizing s with
  | nil => rfl
  | cons c rest ih =>
    unfold hwCalls
    rcases h : hwCall c s with ⟨_ | _, s1⟩ <;> cases congrArg Prod.snd h <;> simp [ih]

@[simp] theorem ledger_bufFree (b : Buf) (s : State) : ledger (bufFree b s) = ledger s := by simp [bufFree]

@[simp] theorem ledger_freeAll (l : List Buf) (s : State) : ledger (freeAll l s) = ledger s := by
  induction l generalizing s with
  | nil => rfl
  | cons b rest ih => simp [freeAll, ih]

@[simp] theorem ledger_dmaFree (a : Addr) (n : Nat) (s : State) : ledger (dmaFree a n s) = ledger s := by simp [dmaFree]

@[simp] theorem ledger_releaseFrame (f : Frame) (b : Bool) (s : State) : ledger (releaseFrame f b s) = ledger s := by
  simp [releaseFrame]

@[simp] theorem ledger_releaseAll (l : List Frame) (s : State) : ledger (releaseAll l s) = ledger s := by
  induction l generalizing s with
  | nil => rfl
  | cons f rest ih => simp [releaseAll, ih]

@[simp] theorem ledger_signalResumable (s : State) : ledger (signalResumable s) = ledger s := by simp [signalResumable]

/-! ### Other agents but the PULLER -/

@[simp] theorem ledger_macTx (k : Nat) (s : State) : ledger (macTx k s) = ledger s := by
  induction k generalizing s with
  | zero => rfl
  | succ k ih =>
    unfold macTx
    split
    · simp [ih, macTxOne, macFetchAct]
    · rfl

@[simp] theorem ledger_macRxOne (l : List Byte) (i : RxMeta) (s : State) : ledger (macRxOne l i s) = ledger s := by
  simp only [macRxOne, complete]
  split <;> simp

@[simp] theorem ledger_macStep (m : MacStep) (s : State) : ledger (macStep m s) = ledger s := by
  cases m with
  | txDone k irq => cases irq <;> simp [macStep, setStatus]
  | rx bytes info irq =>
    simp only [macStep]
    split
    · cases irq <;> simp [setStatus]
    · rfl
  | status mask => simp [macStep, setStatus]
  | arrive r => simp [macStep, arrive]
  | reach n => simp [macStep]

@[simp] theorem ledger_offerFrame (f : Frame) (s : State) : ledger (offerFrame f s) = ledger s := by simp [offerFrame]

@[simp] theorem ledger_hostWrite (a : Addr) (l : List Byte) (s : State) : ledger (hostWrite a l s) = ledger s := by
  unfold hostWrite
  split <;> simp

@[simp] theorem ledger_bufReturn (r : Region) (s : State) : ledger (bufReturn r s) = ledger s := by
  unfold bufReturn
  split <;> simp

/-! ### Transmit -/

@[simp] theorem ledger_dropFrame (e : CoreEvent) (r : Result) (f : Frame) (s : State) :
    ledger (dropFrame e r f s) = (ledger s).count (statOfEvent e) := by simp [dropFrame]

@[simp] theorem ledger_stallFrame (f : Frame) (s : State) : ledger (stallFrame f s) = (ledger s).count (some .txStall) := by
  have h : ledger ((s.emit (.sgUnmap f)).setTx { s.tx with stalled := true }) = ledger s :=
    (ledger_setTx rfl).trans (ledger_emit (by simp) s)
  simp [stallFrame, h]

@[simp] theorem ledger_setTxMbuf (i : Half) (v : Option Frame) (s : State) : ledger (setTxMbuf i v s) = ledger s := by
  simp [setTxMbuf]

@[simp] theorem ledger_addFree (d : Word) (s : State) : ledger (addFree d s) = ledger s := by simp [addFree]

@[simp] theorem ledger_storeHeader (m : TsoMode) (l : List Seg) (v : Memory) (s : State) :
    ledger (storeHeader m l v s) = ledger s := by simp [storeHeader]

@[simp] theorem ledger_fillData (f : Frame) (vt : Half) (cmd : Word) (l : List Seg) (i : Half) (s : State) :
    ledger (fillData f vt cmd l i s).2 = ledger s := by
  induction l generalizing i s with
  | nil => rfl
  | cons g rest ih => simp [fillData, fillOne, ih]

@[simp] theorem ledger_fillPublish (f : Frame) (l : List Seg) (ctx : Option Word) (s : State) :
    ledger (fillPublish f l ctx s) = ledger s := by
  cases ctx <;> simp [fillPublish, fill, publish, fillContext]

@[simp] theorem ledger_beginPull (s : State) : ledger (beginPull s) = ledger s := by simp [beginPull]

/-! ### Receive -/

@[simp] theorem ledger_post (i : Half) (b : Buf) (s : State) : ledger (post i b s) = ledger s := by simp [post]

@[simp] theorem ledger_acquire (i : Half) (d : Nat) (b : Buf) (s : State) : ledger (acquire i d b s).2 = ledger s := by
  obtain ⟨e, he, h⟩ := acquire_cases i d b s
  have hd : e.during = s.env.during := by rw [he]
  obtain ⟨a, -, h⟩ | ⟨a, -, h⟩ | h := h
  · simp [h, takeBuf, hd]
  · simp [h, takeBuf, copyInto, hd]
  · rw [h]
    unfold acquireSpare
    split
    · exact ledger_setEnv hd
    · dsimp only
      split <;> simp [copyInto, hd]

/-- The state an assembled or lost frame leaves has the ledger `k`. -/
def Assembled.HasLedger (k : Ledger) : Assembled → Prop
  | .chain _ s => ledger s = k
  | .lost s => ledger s = k
  | .unposted => True

theorem assembleLoop_hasLedger (n : Nat) (i : Half) (left : Nat) (got : List Buf) (s : State) :
    (assembleLoop n i left got s).HasLedger (ledger s) := by
  induction n generalizing i left got s with
  | zero => rfl
  | succ n ih =>
    simp only [assembleLoop]
    split
    · exact ih ..
    · split
      · trivial
      · rename_i b _
        have ha := ledger_acquire i (min left s.cfg.rxBufSize) b s
        split
        · rename_i r s1 h
          rw [h] at ha
          exact ha ▸ ih ..
        · rename_i s1 h
          rw [h] at ha
          simpa [Assembled.HasLedger] using ha

theorem assemble_hasLedger (i : Half) (n len : Nat) (s : State) : (assemble i n len s).HasLedger (ledger s) := by
  unfold assemble
  split
  · split
    · trivial
    · rename_i b _
      have ha := ledger_acquire i len b s
      split <;> rename_i h <;> rw [h] at ha <;> exact ha
  · exact assembleLoop_hasLedger ..

@[simp] theorem ledger_recycle (k : Completion) (w : Word) (s : State) : ledger (recycle k w s) = ledger s := by
  simp [recycle]

@[simp] theorem ledger_refillCheck (s : State) : ledger (refillCheck s) = ledger s := by
  unfold refillCheck
  split <;> simp

@[simp] theorem ledger_addSpares (n : Nat) (s : State) : ledger (addSpares n s) = ledger s := by
  induction n generalizing s with
  | zero => rfl
  | succ n ih =>
    unfold addSpares
    rcases h : rxBufAlloc s with ⟨_ | b, s1⟩ <;> cases congrArg Prod.snd h <;> simp [ih]

@[simp] theorem ledger_refill (s : State) : ledger (refill s) = ledger s := by
  unfold refill
  split <;> simp [clearRefill]

/-! ### Rings -/

@[simp] theorem ledger_zeroRings (s : State) : ledger (zeroRings s) = ledger s := by simp [zeroRings]

@[simp] theorem ledger_freeRings (s : State) : ledger (freeRings s) = ledger s := by simp [freeRings]

@[simp] theorem ledger_dropArrays (s : State) : ledger (dropArrays s) = ledger s := by simp [dropArrays]

@[simp] theorem ledger_clearRxCursors (s : State) : ledger (clearRxCursors s) = ledger s := by simp [clearRxCursors]

@[simp] theorem ledger_setupFail (s : State) : ledger (setupFail s) = ledger s := by simp [setupFail]

@[simp] theorem ledger_allocRegions (s : State) : ledger (allocRegions s).2 = ledger s := by
  unfold allocRegions
  rcases h1 : dmaAlloc (txBytes s.cfg) s with ⟨_ | t, s1⟩ <;> cases congrArg Prod.snd h1 <;> dsimp only
  · simp
  rcases h2 : dmaAlloc (rrdBytes s.cfg) (dmaAlloc (txBytes s.cfg) s).2 with ⟨_ | r, s2⟩ <;>
    cases congrArg Prod.snd h2 <;> dsimp only
  · simp
  rcases h3 : dmaAlloc (rfdBytes s.cfg) (dmaAlloc (rrdBytes s.cfg) (dmaAlloc (txBytes s.cfg) s).2).2 with ⟨_ | q, s3⟩ <;>
    cases congrArg Prod.snd h3 <;> simp

@[simp] theorem ledger_postBuffers (n i : Nat) (s : State) : ledger (postBuffers n i s).2 = ledger s := by
  induction n generalizing i s with
  | zero => rfl
  | succ n ih =>
    unfold postBuffers
    rcases h : rxBufAlloc s with ⟨_ | b, s1⟩ <;> cases congrArg Prod.snd h <;> simp [ih]

@[simp] theorem ledger_placeRings (t r q : Addr) (s : State) : ledger (placeRings t r q s) = ledger s := by
  simp [placeRings, emptyTx]

@[simp] theorem ledger_setupDone (s : State) : ledger (setupDone s) = ledger s := by simp [setupDone, populatePool]

@[simp] theorem ledger_ringSetup (s : State) : ledger (ringSetup s) = ledger s := by
  unfold ringSetup
  rcases h : allocRegions s with ⟨_ | ⟨t, r, q⟩, s1⟩ <;> cases congrArg Prod.snd h <;> dsimp only
  · simp
  rcases h2 : postBuffers (allocRegions s).2.cfg.nRfd 0 (placeRings t r q (allocRegions s).2) with ⟨_ | _, s2⟩ <;>
    cases congrArg Prod.snd h2 <;> simp [unwind]

@[simp] theorem ledger_txClear (s : State) : ledger (txClear s) = ledger s := by simp [txClear, emptyTx]

@[simp] theorem ledger_rxResetRings (s : State) : ledger (rxResetRings s) = ledger s := by simp [rxResetRings]

@[simp] theorem ledger_offerAll (s : State) : ledger (offerAll s) = ledger s := by simp [offerAll]

@[simp] theorem ledger_ringTeardown (s : State) : ledger (ringTeardown s) = ledger s := by simp [ringTeardown]

/-! ### Control -/

@[simp] theorem ledger_writeIntrMask (m : Word) (s : State) : ledger (writeIntrMask m s) = ledger s := by
  simp [writeIntrMask]

@[simp] theorem ledger_resetForDisable (s : State) : ledger (resetForDisable s) = ledger s := by
  unfold resetForDisable
  rcases h : hwCall .macReset s with ⟨_ | _, s1⟩ <;> cases congrArg Prod.snd h <;> simp [haltMac]

@[simp] theorem ledger_devEnable (s : State) : ledger (devEnable s) = ledger s := by
  have henable (u : State) : ledger (enableMac u) = ledger u := by
    unfold enableMac
    rcases h : hwCalls (enableCalls u) u with ⟨_ | _, u1⟩ <;> cases congrArg Prod.snd h <;>
      simp [enableAbort, haltMac, enableDone]
  unfold devEnable
  split
  · simp
  · dsimp only
    split <;> simp [henable]

@[simp] theorem ledger_advertise (m : BitVec 5) (s : State) : ledger (advertise m s) = ledger s := by
  unfold advertise
  rcases h : hwCall (.setAdvertise m) s with ⟨_ | _, s1⟩ <;> cases congrArg Prod.snd h <;> simp

@[simp] theorem ledger_refuse (s : State) : ledger (refuse s) = ledger s := by simp [refuse]

@[simp] theorem ledger_refuseMedium (s : State) : ledger (refuseMedium s) = ledger s := by simp [refuseMedium]

@[simp] theorem ledger_refuseWord (e : DecodeError) (s : State) : ledger (refuseWord e s) = ledger s := by
  cases e <;> simp [refuseWord]

@[simp] theorem ledger_logAlert (w : Word) (s : State) : ledger (logAlert w s) = ledger s := by
  unfold logAlert
  split <;> simp

@[simp] theorem ledger_setPollMode (on : Bool) (s : State) : ledger (setPollMode on s) = ledger s := by
  unfold setPollMode
  split <;> simp

end Sys2Proof.Machine
end

section
/-! SUPPORT. What an operation enters in the ledger: the relation, and the steps of other agents inside an operation. -/

namespace Sys2Proof.Machine

/-! ### The relation -/

/-- What an operation may be a writer of. -/
inductive Entry where
  | stat (c : Stat)
  | medium
  | doneCount

/-- The PULLER may step inside the operation (41_transmit.md R183). -/
def Ledger.PullInside (k : Ledger) : Prop := k.cfg.txSched = .pull ∧ ¬∀ l ∈ k.during, MidStep.pull ∉ l

/-- From `k` to `l` only the entries of `W` are written, and by a PULLER that steps inside the two drops; each statistic grows
by what the record of acts shows of it. -/
structure Writes (W : List Entry) (k l : Ledger) : Prop where
  cfg : l.cfg = k.cfg
  during : ∀ steps ∈ l.during, steps ∈ k.during
  counts : ∀ c, l.stats c + k.shown c = k.stats c + l.shown c
  grows : ∀ c, k.stats c ≤ l.stats c
  stats : ∀ c, l.stats c = k.stats c ∨ .stat c ∈ W ∨ (c = .txDrop ∨ c = .txResErr) ∧ k.PullInside
  medium : l.medium = k.medium ∨ .medium ∈ W
  doneCount : l.doneCount = k.doneCount ∨ .doneCount ∈ W

variable {V W : List Entry} {j k l : Ledger}

theorem Writes.refl (W : List Entry) (k : Ledger) : Writes W k k where
  cfg := rfl
  during := fun _ h => h
  counts := fun _ => rfl
  grows := fun _ => le_rfl
  stats := fun _ => .inl rfl
  medium := .inl rfl
  doneCount := .inl rfl

theorem Writes.pullInside (h : Writes W k l) (hl : l.PullInside) : k.PullInside :=
  ⟨h.cfg ▸ hl.1, fun hk => hl.2 fun steps hs => hk steps (h.during steps hs)⟩

theorem Writes.trans (h : Writes W j k) (h' : Writes V k l) (hV : V ⊆ W) : Writes W j l where
  cfg := h'.cfg.trans h.cfg
  during := fun steps hs => h.during steps (h'.during steps hs)
  counts := fun c => by have := h.counts c; have := h'.counts c; omega
  grows := fun c => (h.grows c).trans (h'.grows c)
  stats := fun c => by
    obtain h2 | h2 | ⟨hc, hp⟩ := h'.stats c
    · exact (h.stats c).imp_left h2.trans
    · exact .inr (.inl (hV h2))
    · exact .inr (.inr ⟨hc, h.pullInside hp⟩)
  medium := h'.medium.elim (fun h2 => h.medium.imp_left h2.trans) fun h2 => .inr (hV h2)
  doneCount := h'.doneCount.elim (fun h2 => h.doneCount.imp_left h2.trans) fun h2 => .inr (hV h2)

theorem Writes.mono (h : Writes V k l) (hV : V ⊆ W) : Writes W k l := (Writes.refl W k).trans h hV

/-- One more counted in a statistic the operation is a writer of. -/
theorem Writes.count {c : Stat} (h : Writes W k l) (hc : .stat c ∈ W) : Writes W k (l.count (some c)) := by
  refine h.trans (V := [.stat c]) ⟨rfl, fun _ hs => hs, fun d => ?_, fun d => ?_, fun d => ?_, .inl rfl, .inl rfl⟩ (by simpa)
  · simp only [Ledger.count]
    omega
  · exact Nat.le_add_right ..
  · by_cases hd : c = d
    · exact .inr (.inl (by simp [hd]))
    · exact .inl (by simp [Ledger.count, hd])

/-- The two statistics the PULLER writes (R183). -/
def pullStats : List Entry := [.stat .txDrop, .stat .txResErr]

/-- The four statistics of the receive walk (42_receive.md R193 to R198). -/
def rxStats : List Entry := [.stat .rxLenErr, .stat .rxErr, .stat .rxResErr, .stat .rxDelivered]

theorem stat_mem_pullStats {c : Stat} : .stat c ∈ pullStats ↔ c = .txDrop ∨ c = .txResErr := by simp [pullStats]

/-- Where the PULLER may step inside, its two statistics are no operation's own. -/
theorem Writes.of_pullInside (h : Writes pullStats k l) (hk : k.PullInside) : Writes [] k l where
  cfg := h.cfg
  during := h.during
  counts := h.counts
  grows := h.grows
  stats := fun c => (h.stats c).imp_right fun hc =>
    .inr ⟨hc.elim stat_mem_pullStats.1 And.left, hk⟩
  medium := h.medium.imp_right (by simp [pullStats])
  doneCount := h.doneCount.imp_right (by simp [pullStats])

/-! ### The PULLER and the other agents -/

variable {s t : State}

/-- An enqueue drops the frame, stalls, or publishes it (41_transmit.md R161 to R173). -/
theorem Writes.enqueue {m : TsoMode} {room : Bool} {f : Frame} (h : Writes W k (ledger s)) (hW : pullStats ⊆ W)
    (hr : room = true → .stat .txStall ∈ W) (he : enqueue m room f s = .next t) : Writes W k (ledger t) := by
  obtain ⟨-, ⟨-, rfl⟩ | ⟨-, -, rfl⟩ | ⟨segs, -, -, -, ⟨hroom, -, rfl⟩ | ⟨-, -, m1, ctx, -, rfl⟩⟩⟩ := enqueue_cases he
  · simpa using h.count (hW (stat_mem_pullStats.2 (.inl rfl)))
  · simpa using h.count (hW (stat_mem_pullStats.2 (.inr rfl)))
  · simpa using h.count (hr hroom)
  · simpa using h

/-- An access of a `TX.PULL` in progress (R177). -/
theorem Writes.pullStep (h : Writes W k (ledger s)) (hW : pullStats ⊆ W) (hp : pullStep s = .next t) :
    Writes W k (ledger t) := by
  obtain ⟨-, rfl⟩ | ⟨-, rfl⟩ | ⟨_, -, ⟨-, rfl⟩ | ⟨-, ⟨-, rfl⟩ | ⟨f, rest, -, rfl⟩⟩⟩ | ⟨f, u, -, hu, rfl⟩ := pullStep_cases hp
  · exact h
  · simpa using h
  · simpa using h
  · simpa using h
  · simpa using h
  · simpa using h.enqueue hW (by simp) hu

theorem Writes.pullTurn (h : Writes W k (ledger s)) (hW : pullStats ⊆ W) (hp : pullTurn s = .next t) :
    Writes W k (ledger t) := by
  obtain rfl | ⟨-, ⟨-, -, rfl⟩ | ⟨-, hs⟩⟩ := pullTurn_cases hp
  · exact h
  · simpa using h
  · exact h.pullStep hW hs

theorem Writes.midStep (m : MidStep) (h : Writes W k (ledger s)) (hW : pullStats ⊆ W) :
    Writes W k (ledger (midStep m s)) := by
  obtain he | ⟨a, he⟩ | he | ⟨f, he⟩ | ⟨a, l, he⟩ | ⟨r, he⟩ := midStep_cases m s
  case inr.inr.inl => exact h.pullTurn hW he
  all_goals simpa [he] using h

/-- In the push model, or at a point where it is not scheduled, the PULLER takes no step (R183). -/
theorem ledger_midStep {m : MidStep} (hm : s.cfg.txSched = .pull → m ≠ .pull) : ledger (midStep m s) = ledger s := by
  cases m with
  | pull =>
    obtain he | he := pullInside_cases s
    · exact congrArg ledger he
    · obtain hs | ⟨hc, -⟩ := pullTurn_cases he
      · exact congrArg ledger hs
      · exact absurd rfl (hm hc)
  | _ => simp [midStep]

theorem ledger_macSteps (l : List MidStep) (hl : s.cfg.txSched = .pull → .pull ∉ l) :
    ledger (macSteps l s) = ledger s := by
  induction l generalizing s with
  | nil => rfl
  | cons m rest ih =>
    have hm : ledger (Machine.midStep m s) = ledger s :=
      ledger_midStep fun hc he => hl hc (he ▸ List.mem_cons_self)
    rw [macSteps, ih (by simpa using fun hc hr => hl hc (List.mem_cons_of_mem _ hr)), hm]

theorem dropPoint_writes (s : State) : Writes [] (ledger s) (ledger (dropPoint s)) :=
  { Writes.refl [] (ledger s) with during := fun _ hs => List.mem_of_mem_tail hs }

/-- Only the PULLER writes anything at an interleaving point (R17, R183). -/
theorem macPoint_writes (s : State) : Writes [] (ledger s) (ledger (macPoint s)) := by
  by_cases hp : (ledger s).PullInside
  · have hs : Writes pullStats (ledger s) (ledger (macPoint s)) :=
      macSteps_keeps (P := fun t => Writes pullStats (ledger s) (ledger t)) (fun m _ h => h.midStep m (List.Subset.refl _)) _
        ((dropPoint_writes s).mono (List.nil_subset _))
    exact hs.of_pullInside hp
  · have hl : s.cfg.txSched = .pull → MidStep.pull ∉ s.env.during.headD [] := fun hc hm => by
      refine hp ⟨hc, fun hd => ?_⟩
      cases he : s.env.during with
      | nil => simp [he] at hm
      | cons steps rest => exact hd steps (by simp [ledger, he]) (by simpa [he] using hm)
    have he : ledger (macPoint s) = ledger (dropPoint s) := ledger_macSteps _ hl
    exact he ▸ dropPoint_writes s

theorem Writes.macPoint (h : Writes W k (ledger s)) : Writes W k (ledger (macPoint s)) :=
  h.trans (macPoint_writes s) (List.nil_subset _)

end Sys2Proof.Machine
end

section
/-! SUPPORT. What each operation enters in the ledger, and O59 from it. -/

namespace Sys2Proof.Machine

variable {W : List Entry} {k : Ledger} {s t : State}

/-! ### Control (60_exceptions.md R256 to R265): of the ledger it writes the medium alone -/

theorem Writes.flushOutbound (h : Writes W k (ledger s)) : Writes W k (ledger (flushOutbound s)) :=
  flushLoop_keeps (P := fun t => Writes W k (ledger t)) (fun _ ht => ht.macPoint) (fun _ _ _ ht _ => by simpa using ht) _ h

theorem Writes.devDisable (h : Writes W k (ledger s)) : Writes W k (ledger (devDisable s)) := by
  have h1 : Writes W k (ledger (clearModeFlags (disableInterrupts (wdtCancel s)))) := by
    simpa [clearModeFlags, disableInterrupts, wdtCancel] using h
  unfold Machine.devDisable
  split
  · rw [disableSteps, ledger_setResult, ledger_ringTeardown]
    refine .macPoint ?_
    simpa using h1.macPoint.flushOutbound
  · simpa using h

theorem Writes.abortAdmin (h : Writes W k (ledger s)) : Writes W k (ledger (abortAdmin s)) := by
  have h1 : Writes W k (ledger (raise .cfgTimeout s)) := by simpa using h
  simpa [Machine.abortAdmin] using h1.devDisable

theorem Writes.devReset (h : Writes W k (ledger s)) : Writes W k (ledger (devReset s)) := by
  have h1 : Writes W k (ledger (devRestart s)) := by simpa [devRestart] using h.devDisable.macPoint
  simp only [Machine.devReset]
  split
  · simpa using h1
  · exact h1

theorem Writes.linkUp (p : Link) (h : Writes W k (ledger s)) : Writes W k (ledger (linkUp p s)) := by
  unfold Machine.linkUp
  have h1 : Writes W k (ledger (hwCall (.macStart (some p)) (s.setLink p)).2) := by simpa using h
  split
  · rename_i s1 hc
    rw [hc] at h1
    exact h1.abortAdmin
  · rename_i s1 hc
    rw [hc] at h1
    have h2 : Writes W k (ledger ((writeIntrMask (imrFull s1.cfg) s1).setFlags
        { (writeIntrMask (imrFull s1.cfg) s1).flags with linkUp := true })) := by simpa using h1
    simpa [wdtArm] using h2.macPoint

theorem Writes.linkDown (h : Writes W k (ledger s)) : Writes W k (ledger (linkDown s)) := by
  have h1 : Writes W k (ledger (s.setFlags { s.flags with linkUp := false })) := by simpa using h
  have h2 : Writes W k (ledger (hwCall .macReset (linkDownStop s)).2) := by
    simpa [linkDownStop, wdtCancel] using h1.macPoint.flushOutbound
  unfold Machine.linkDown
  split
  · rename_i s1 hc
    rw [hc] at h2
    exact h2.abortAdmin
  · rename_i s1 hc
    rw [hc] at h2
    have h3 : Writes W k (ledger (hwCalls (linkDownCalls (linkDownClear s1)) (linkDownClear s1)).2) := by
      simpa [linkDownClear] using h2.macPoint
    dsimp only
    split <;> rename_i s2 hc2 <;> rw [hc2] at h3
    · exact h3.abortAdmin
    · simpa using h3

theorem Writes.linkEvalOn {r : Option Link} (h : Writes W k (ledger s)) (he : linkEvalOn r s = .next t) :
    Writes W k (ledger t) := by
  cases r with
  | none =>
    cases he
    split
    · exact h.linkDown
    · exact h
  | some p =>
    have h1 : Writes W k (ledger (if s.flags.linkUp && p != s.link then
        Machine.macPoint (Machine.linkDown s) else s)) := by
      split
      · exact h.linkDown.macPoint
      · exact h
    have hup {u : State} (hu : Writes W k (ledger u)) :
        Writes W k (ledger (if !u.flags.linkUp && u.flags.enabled then Machine.linkUp p u else u)) := by
      split
      · exact hu.linkUp p
      · exact hu
    simp only [Machine.linkEvalOn] at he
    split at he <;> cases he
    exact hup h1

theorem Writes.linkEval (h : Writes W k (ledger s)) (he : linkEval s = .next t) : Writes W k (ledger t) :=
  Writes.linkEvalOn (s := (hwReadLink s).2) (by simpa using h) he

theorem Writes.mediumSelect (m : BitVec 5) (hW : .medium ∈ W) (h : Writes W k (ledger s)) :
    Writes W k (ledger (mediumSelect m s)) := by
  have h1 : Writes W k (ledger (s.setMedium m)) :=
    h.trans (V := [.medium]) { Writes.refl [.medium] (ledger s) with medium := .inr (List.mem_singleton_self _) } (by simpa)
  simp only [Machine.mediumSelect]
  split
  · split
    · unfold reselect
      split
      · dsimp only
        split
        · simpa using h1.linkDown
        · exact h1.linkDown
      · simpa using h1
    · simpa using h1
  · simpa using h

/-- A medium is recorded when it is legal, whatever becomes of the rest (R261). -/
theorem mediumSelect_medium (m : BitVec 5) (s : State) :
    (mediumSelect m s).medium = s.medium ∨ mediumLegal m = true ∧ (mediumSelect m s).medium = m := by
  unfold mediumSelect
  split
  · rename_i hm
    refine .inr ⟨hm, ?_⟩
    dsimp only
    split <;> simp
  · exact .inl (by simp [refuseMedium])

/-! ### Transmit (41_transmit.md R177 to R182) -/

theorem Writes.finishPull (h : Writes W k (ledger s)) (hW : pullStats ⊆ W) (hp : finishPull s = .next t) :
    Writes W k (ledger t) :=
  pullRun_keeps (P := fun u => Writes W k (ledger u)) (fun _ hu => hu.macPoint) (fun _ _ hu hs => hu.pullStep hW hs) _ h hp

theorem Writes.reclaimOne (hW : .doneCount ∈ W) (h : Writes W k (ledger s)) : Writes W k (ledger (reclaimOne s)) := by
  have he : ledger (Machine.reclaimOne s) = { ledger s with doneCount := s.tx.doneCount + 1#32 } := by
    have hd (u : State) (v : TxSide) : ledger (u.setTx v) = { ledger u with doneCount := v.doneCount } := rfl
    have hm (f : Frame) (i : Half) : (setTxMbuf i none (releaseFrame f true s)).tx.doneCount = s.tx.doneCount := rfl
    simp only [Machine.reclaimOne, ledger_addFree]
    split <;> simp [hd, hm]
  exact he ▸ h.trans (V := [.doneCount])
    { Writes.refl [.doneCount] (ledger s) with doneCount := .inr (List.mem_singleton_self _) } (by simpa)

theorem Writes.reclaim (hW : .doneCount ∈ W) (h : Writes W k (ledger s)) (hr : reclaim s = .next t) :
    Writes W k (ledger t) := by
  have hm (n : Nat) : Writes W k (ledger (reclaimMany n s)) :=
    reclaimMany_keeps (P := fun u => Writes W k (ledger u)) (fun _ hu => hu.reclaimOne hW) (fun _ hu => hu.macPoint) n h
  have hw {u : State} (hu : Writes W k (ledger u)) : Writes W k (ledger (wake u)) := by
    have h1 : Writes W k (ledger ((Machine.macPoint u).setTx { (Machine.macPoint u).tx with stalled := false })) := by
      simpa using hu.macPoint
    unfold wake
    split
    · simpa using h1.macPoint
    · exact hu
  unfold Machine.reclaim at hr
  split at hr
  · cases hr
    simpa [reclaimTo] using hw (hm _)
  · cases hr

theorem Writes.reclaimIfEnabled (hW : .doneCount ∈ W) (h : Writes W k (ledger s)) (hr : reclaimIfEnabled s = .next t) :
    Writes W k (ledger t) := by
  unfold Machine.reclaimIfEnabled at hr
  split at hr
  · exact h.reclaim hW hr
  · cases hr
    simpa using h

/-! ### Receive (42_receive.md R190 to R201) -/

theorem Writes.drainOne (hW : rxStats ⊆ W) (h : Writes W k (ledger s)) (hd : drainOne s = .next t) :
    Writes W k (ledger t) := by
  obtain ⟨-, s1, rfl, hs⟩ := drainOne_cases hd
  rw [ledger_recycle]
  have ha := assemble_hasLedger (rrdCompletion s).start (rrdCompletion s).count
    ((rrdCompletion s).len - s.cfg.crcLen) s
  obtain rfl | rfl | ⟨-, ⟨l, s2, he, rfl⟩ | ⟨s2, he, rfl⟩⟩ := hs
  · simpa using h.count (c := .rxLenErr) (hW (by simp [rxStats]))
  · simpa using h.count (c := .rxErr) (hW (by simp [rxStats]))
  · rw [he] at ha
    rw [ledger_deliver, show ledger s2 = ledger s from ha]
    exact h.count (hW (by simp [rxStats]))
  · rw [he] at ha
    rw [ledger_raise, show ledger s2 = ledger s from ha]
    exact h.count (hW (by simp [rxStats]))

theorem Writes.drain {budget : Option Nat} (hW : rxStats ⊆ W) (h : Writes W k (ledger s)) (hd : drain budget s = .next t) :
    Writes W k (ledger t) := by
  unfold Machine.drain at hd
  split at hd
  · obtain ⟨u, hu, ht⟩ := andThen_eq_next.1 hd
    have hl : Writes W k (ledger u) :=
      drainLoop_keeps (P := fun u => Writes W k (ledger u)) (fun _ h => h.macPoint) (fun _ _ h hs => h.drainOne hW hs) _
        (s := s.setResult (.count 0)) (by simpa using h) hu
    unfold drainEnd at ht
    split at ht
    · cases ht
    · cases ht
      simpa using hl
  · cases hd

theorem Writes.rxService (hW : rxStats ⊆ W) (h : Writes W k (ledger s)) (hr : rxService s = .next t) :
    Writes W k (ledger t) := by
  obtain ⟨u, hu, ht⟩ := andThen_eq_next.1 hr
  have hl := h.drain hW hu
  cases ht
  split
  · exact hl
  · simpa [flushInboundBatch] using hl

theorem Writes.pollService {budget : Option Nat} (hW : rxStats ⊆ W) (hd : .doneCount ∈ W) (h : Writes W k (ledger s))
    (hp : pollService budget s = .next t) : Writes W k (ledger t) := by
  unfold Machine.pollService at hp
  split at hp
  · obtain ⟨u, hu, ht⟩ := andThen_eq_next.1 hp
    exact (h.reclaim hd hu).drain hW ht
  · cases hp
    simpa using h

/-! ### The two writers of the reset count (60_exceptions.md R250, R262) -/

/-- One reset counted on the way from `s` to `t`, and nothing else entered. -/
def CountsReset (s t : State) : Prop :=
  ∃ u, Writes [] (ledger s) (ledger u) ∧ Writes [] ((ledger u).count (some .resetCount)) (ledger t)

theorem CountsReset.writes (h : CountsReset s t) (hW : .stat .resetCount ∈ W) : Writes W (ledger s) (ledger t) := by
  obtain ⟨u, hu, ht⟩ := h
  exact ((hu.mono (List.nil_subset _)).count hW).trans ht (List.nil_subset _)

/-- What is no statistic of the PULLER's and none of `W` stays. -/
theorem Writes.stat_eq {l : Ledger} {c : Stat} (h : Writes W k l) (hW : .stat c ∉ W) (hc : .stat c ∉ pullStats) :
    l.stats c = k.stats c :=
  (h.stats c).resolve_right fun hs => hs.elim hW fun hp => hc (stat_mem_pullStats.2 hp.1)

theorem CountsReset.resetCount (h : CountsReset s t) : t.stats.resetCount = s.stats.resetCount + 1 := by
  obtain ⟨u, hu, ht⟩ := h
  have h1 := hu.stat_eq (c := .resetCount) (by simp) (by simp [pullStats])
  have h2 := ht.stat_eq (c := .resetCount) (by simp) (by simp [pullStats])
  exact h2.trans (congrArg (· + 1) h1)

theorem wdtTick_writes (s : State) : Writes [] (ledger s) (ledger (wdtTick s)) ∨ CountsReset s (wdtTick s) := by
  have hs := Writes.refl [] (ledger s)
  unfold wdtTick
  split
  · split
    · simp only [stalledTick]
      split
      · refine .inr ⟨s, hs, Writes.devReset ?_⟩
        simpa using Writes.refl [] ((ledger s).count (some .resetCount))
      · exact .inl (by simpa using hs)
    · exact .inl (by simpa using hs)
  · exact .inl hs

/-- A dispatch that serves the engines and the link (R249 steps 2 to 4). -/
theorem Writes.serve {status : Word} (hW : rxStats ⊆ W) (hd : .doneCount ∈ W) (h : Writes W k (ledger s))
    (hs : serve status s = .next t) : Writes W k (ledger t) := by
  obtain ⟨u, hu, hs⟩ := andThen_eq_next.1 hs
  obtain ⟨v, hv, ht⟩ := andThen_eq_next.1 hs
  have h1 : Writes W k (ledger (logAlert status s)) := by simpa using h
  have h2 : Writes W k (ledger u) := by
    unfold serveEngines at hu
    split at hu
    · cases hu
      exact h1
    · obtain ⟨w, hw, hu⟩ := andThen_eq_next.1 hu
      have h3 : Writes W k (ledger w) := by
        unfold serveTx at hw
        split at hw
        · exact h1.macPoint.reclaimIfEnabled hd hw
        · cases hw
          exact h1
      unfold serveRx at hu
      split at hu
      · exact h3.rxService hW hu
      · cases hu
        exact h3
  have h4 : Writes W k (ledger v) := by
    unfold serveLink at hv
    split at hv
    · exact h2.macPoint.linkEval hv
    · cases hv
      exact h2
  cases ht
  simpa using h4

theorem dispatch_writes (h : dispatch s = .next t) :
    Writes (.doneCount :: rxStats) (ledger s) (ledger t) ∨ CountsReset s t := by
  have h1 {V : List Entry} : Writes V (ledger s) (ledger (dispatchEntry s)) := by
    simpa [dispatchEntry] using (Writes.refl V (ledger s)).macPoint
  simp only [dispatch] at h
  split at h
  · cases h
    have h2 : Writes [] ((ledger (dispatchEntry s)).count (some .resetCount))
        (ledger (log .fatalInterrupt (raise .hwFatal (dispatchEntry s)))) := by
      simpa using Writes.refl [] _
    exact .inr ⟨_, h1, by simpa [fatalReset] using h2.devReset⟩
  · exact .inl (h1.serve (List.subset_cons_self ..) List.mem_cons_self h)

/-! ### One operation -/

/-- The entries of the ledger an operation is a writer of. -/
def entriesOf : Instr → List Entry
  | .ringSetup => []
  | .ringTeardown => []
  | .txClear => []
  | .rxReset => []
  | .txqPlain => .stat .txStall :: pullStats
  | .txqTso4 => .stat .txStall :: pullStats
  | .txqTso6 => .stat .txStall :: pullStats
  | .txPull => pullStats
  | .txReclaim => [.doneCount]
  | .rxDrain _ => rxStats
  | .poolRefill => []
  | .irqDispatch => .stat .resetCount :: .doneCount :: rxStats
  | .pollService _ => .doneCount :: rxStats
  | .pollMode _ => []
  | .wdtTick => [.stat .resetCount]
  | .linkUp => []
  | .linkDown => []
  | .devReset => []
  | .devEnable => []
  | .devDisable => []
  | .mediumSelect _ => [.medium]

/-- An enqueue requested on its own: the rest of a `TX.PULL` in progress, then the frame (R174 to R176). -/
theorem txq_writes {m : TsoMode} (h : (andThen (finishPull s) fun u => enqueue m true u.frameArg u) = .next t) :
    Writes (.stat .txStall :: pullStats) (ledger s) (ledger t) := by
  obtain ⟨u, hu, ht⟩ := andThen_eq_next.1 h
  have hW : pullStats ⊆ .stat .txStall :: pullStats := List.subset_cons_self ..
  exact ((Writes.refl _ _).finishPull hW hu).enqueue hW (fun _ => List.mem_cons_self) ht

theorem execTxPull_writes (h : execTxPull s = .next t) : Writes pullStats (ledger s) (ledger t) := by
  obtain ⟨u, hu, hp⟩ := andThen_eq_next.1 h
  obtain ⟨v, hv, ht⟩ := andThen_eq_next.1 hp
  cases ht
  have h1 : Writes pullStats (ledger s) (ledger (beginPull u)) := by
    simpa using (Writes.refl _ (ledger s)).finishPull (List.Subset.refl _) hu
  simpa using h1.finishPull (List.Subset.refl _) hv

theorem exec_writes {i : Instr} (h : exec i s = .next t) : Writes (entriesOf i) (ledger s) (ledger t) := by
  have hs (W : List Entry) := Writes.refl W (ledger s)
  cases i with
  | ringSetup =>
    change execRingSetup s = _ at h
    cases h
    split <;> simpa using hs _
  | ringTeardown =>
    change execRingTeardown s = _ at h
    unfold execRingTeardown at h
    split at h
    · cases h; simpa using hs _
    · split at h <;> cases h
      simpa using hs _
  | txClear =>
    change execTxClear s = _ at h
    unfold execTxClear at h
    split at h
    · cases h; simpa using hs _
    · split at h <;> cases h
      simpa using hs _
  | rxReset =>
    change execRxReset s = _ at h
    unfold execRxReset at h
    split at h
    · cases h; simpa using hs _
    · split at h <;> cases h
      simpa using hs _
  | txqPlain => exact txq_writes h
  | txqTso4 => exact txq_writes h
  | txqTso6 => exact txq_writes h
  | txPull => exact execTxPull_writes h
  | txReclaim => exact (hs _).reclaimIfEnabled (List.mem_singleton_self _) h
  | rxDrain b =>
    change drainIfEnabled (budgetOf b) s = _ at h
    unfold drainIfEnabled at h
    split at h
    · exact (hs _).drain (List.Subset.refl _) h
    · cases h; simpa using hs _
  | poolRefill =>
    cases h
    simpa using hs _
  | irqDispatch =>
    change execIrqDispatch s = _ at h
    unfold execIrqDispatch at h
    split at h
    · obtain h | h := dispatch_writes h
      · exact h.mono (List.subset_cons_self ..)
      · exact h.writes List.mem_cons_self
    · cases h; simpa using hs _
  | pollService b =>
    exact (hs _).pollService (W := .doneCount :: rxStats) (List.subset_cons_self ..) List.mem_cons_self h
  | pollMode on =>
    cases h
    simpa using hs _
  | wdtTick =>
    cases h
    rw [ledger_setResult]
    obtain h | h := wdtTick_writes s
    · exact h.mono (List.nil_subset _)
    · exact h.writes (List.mem_singleton_self _)
  | linkUp =>
    change execLinkUp s = _ at h
    unfold execLinkUp at h
    split at h
    · cases h; simpa using hs _
    · split at h <;> cases h
      exact (hs _).linkUp _
  | linkDown =>
    cases h
    split
    · exact (hs _).linkDown
    · simpa using hs _
  | devReset =>
    cases h
    split
    · exact (hs _).devReset
    · simpa using hs _
  | devEnable =>
    cases h
    simpa using hs _
  | devDisable =>
    cases h
    exact (hs _).devDisable
  | mediumSelect m =>
    cases h
    exact (hs _).mediumSelect m (List.mem_singleton_self _)

end Sys2Proof.Machine
end

section
/-! SUPPORT. O59: what the ledger says of one operation and of one step. -/

namespace Sys2Proof.Machine

variable {W : List Entry} {s t : State} {i : Instr}

/-! ### The writers of each entry -/

theorem exists_txqOf : (∃ m, i = txqOf m) ↔ i = .txqPlain ∨ i = .txqTso4 ∨ i = .txqTso6 := by
  constructor
  · rintro ⟨_ | _ | _, rfl⟩ <;> simp [txqOf]
  · rintro (rfl | rfl | rfl)
    exacts [⟨.none, rfl⟩, ⟨.tso4, rfl⟩, ⟨.tso6, rfl⟩]

/-- Only the operations that transmit are writers of the two drops. -/
theorem transmits_of_mem {c : Stat} (hc : .stat c ∈ pullStats) (h : .stat c ∈ entriesOf i) :
    i = .txPull ∨ ∃ m, i = txqOf m := by
  rw [exists_txqOf]
  rw [stat_mem_pullStats] at hc
  cases i <;> obtain rfl | rfl := hc <;> simp [entriesOf, rxStats, pullStats] at h ⊢

theorem txq_of_mem (h : .stat .txStall ∈ entriesOf i) : ∃ m, i = txqOf m := by
  rw [exists_txqOf]
  cases i <;> simp [entriesOf, rxStats, pullStats] at h ⊢

theorem drains_of_mem {c : Stat} (hc : .stat c ∈ rxStats) (h : .stat c ∈ entriesOf i) :
    i = .irqDispatch ∨ ∃ b, i = .rxDrain b ∨ i = .pollService b := by
  simp only [rxStats, List.mem_cons, Entry.stat.injEq, List.not_mem_nil, or_false] at hc
  cases i <;> obtain rfl | rfl | rfl | rfl := hc <;> simp [entriesOf, pullStats] at h ⊢

theorem reset_of_mem (h : .stat .resetCount ∈ entriesOf i) : i = .wdtTick ∨ i = .irqDispatch := by
  cases i <;> simp [entriesOf, rxStats, pullStats] at h ⊢

theorem mediumSelect_of_mem (h : .medium ∈ entriesOf i) : ∃ m, i = .mediumSelect m := by
  cases i <;> simp [entriesOf, rxStats, pullStats] at h ⊢

theorem reclaims_of_mem (h : .doneCount ∈ entriesOf i) :
    i = .txReclaim ∨ i = .irqDispatch ∨ ∃ b, i = .pollService b := by
  cases i <;> simp [entriesOf, rxStats, pullStats] at h ⊢

/-! ### What the relation says in the terms of the statements -/

theorem Writes.statsCountActs (h : Writes W (ledger s) (ledger t)) : StatsCountActs t s :=
  ⟨h.counts .txDrop, h.counts .txResErr, h.counts .txStall, h.counts .rxLenErr, h.counts .rxErr, h.counts .rxResErr,
    h.counts .rxDelivered, h.counts .resetCount⟩

theorem Writes.statsGrow (h : Writes W (ledger s) (ledger t)) : StatsGrow t s :=
  ⟨h.grows .txDrop, h.grows .txResErr, h.grows .txStall, h.grows .rxLenErr, h.grows .rxErr, h.grows .rxResErr,
    h.grows .rxDelivered, h.grows .resetCount⟩

theorem Writes.onlyPullCounts (h : Writes pullStats (ledger s) (ledger t)) : OnlyPullCounts t s := by
  refine stats_ext fun c => ?_
  by_cases hc : .stat c ∈ pullStats
  · obtain rfl | rfl := stat_mem_pullStats.1 hc <;> rfl
  · refine (h.stat_eq hc hc).trans ?_
    cases c
    case txDrop => simp [pullStats] at hc
    case txResErr => simp [pullStats] at hc
    all_goals rfl

theorem stats_eq_of_ledger (h : ledger t = ledger s) : t.stats = s.stats :=
  stats_ext fun c => congrFun (congrArg Ledger.stats h) c

/-! ### One operation and one step -/

/-- An operation counts one reset at most (60_exceptions.md R250, R262). -/
theorem exec_resetCount (h : exec i s = .next t) :
    t.stats.resetCount = s.stats.resetCount ∨
      (i = .wdtTick ∨ i = .irqDispatch) ∧ t.stats.resetCount = s.stats.resetCount + 1 := by
  have hp : .stat .resetCount ∉ pullStats := by simp [pullStats]
  by_cases hi : .stat .resetCount ∈ entriesOf i
  · obtain rfl | rfl := reset_of_mem hi
    · cases h
      obtain h | h := wdtTick_writes s
      · exact .inl (h.stat_eq (by simp) hp)
      · exact .inr ⟨.inl rfl, h.resetCount⟩
    · change execIrqDispatch s = _ at h
      unfold execIrqDispatch at h
      split at h
      · obtain h | h := dispatch_writes h
        · exact .inl (h.stat_eq (by simp [rxStats]) hp)
        · exact .inr ⟨.inr rfl, h.resetCount⟩
      · cases h
        exact .inl rfl
  · exact .inl ((exec_writes h).stat_eq hi hp)

theorem exec_medium (h : exec i s = .next t) :
    t.medium = s.medium ∨ ∃ m, i = .mediumSelect m ∧ mediumLegal m = true ∧ t.medium = m := by
  obtain he | hm := (exec_writes h).medium
  · exact .inl he
  · obtain ⟨m, rfl⟩ := mediumSelect_of_mem hm
    cases h
    exact (mediumSelect_medium m s).imp_right fun hs => ⟨m, rfl, hs⟩

theorem finishPull_writes (h : finishPull s = .next t) : Writes pullStats (ledger s) (ledger t) :=
  (Writes.refl _ _).finishPull (List.Subset.refl _) h

/-- An event that is no request and no step of the PULLER enters nothing. -/
theorem ledger_runEvent {e : Event} (ho : ∀ r, e ≠ .op r) (hp : e ≠ .pull) (h : runEvent e s = .next t) :
    ledger t = ledger s := by
  cases e with
  | op r => exact absurd rfl (ho r)
  | pull => exact absurd rfl hp
  | answer a =>
    cases h
    cases a <;> exact ledger_setEnv rfl
  | _ =>
    cases h
    simp

/-- A scheduled event writes what its operation writes, or what the PULLER does. -/
theorem runEvent_writes {e : Event} (h : runEvent e s = .next t) : ∃ W, Writes W (ledger s) (ledger t) := by
  cases e with
  | op r =>
    obtain ⟨i, -, hx⟩ | ⟨e, -, rfl⟩ := runRequest_cases h
    · exact ⟨entriesOf i, by simpa using exec_writes hx⟩
    · exact ⟨[], by simpa using Writes.refl [] (ledger s)⟩
  | pull => exact ⟨pullStats, (Writes.refl _ _).pullTurn (List.Subset.refl _) h⟩
  | _ => exact ⟨[], ledger_runEvent (by simp) (by simp) h ▸ Writes.refl [] _⟩

theorem step_writes (h : step s = .next t) : ∃ W, Writes W (ledger s) (ledger t) := by
  obtain ⟨-, ⟨e, rest, -, he⟩ | ⟨-, rfl | hf | ⟨i, -, hx⟩⟩⟩ := step_cases h
  · simpa using runEvent_writes he
  · exact ⟨[], Writes.refl _ _⟩
  · exact ⟨pullStats, finishPull_writes hf⟩
  · exact ⟨entriesOf i, exec_writes hx⟩

/-- A step that takes no request off the schedule counts nothing, but for the PULLER's (R183). -/
theorem step_event_stats {e : Event} {rest : List Event} (h : step s = .next t) (hp : s.pending = e :: rest)
    (ho : ∀ r, e ≠ .op r) : if e = .pull then OnlyPullCounts t s else t.stats = s.stats := by
  obtain ⟨-, ⟨e', rest', hp', he⟩ | ⟨hn, -⟩⟩ := step_cases h
  · cases hp'.symm.trans hp
    split
    · rename_i hpull
      subst hpull
      exact Writes.onlyPullCounts ((Writes.refl _ _).pullTurn (s := s.setPending rest) (List.Subset.refl _) he)
    · rename_i hpull
      exact stats_eq_of_ledger (s := s.setPending rest) (ledger_runEvent ho hpull he)
  · simp [hn] at hp

end Sys2Proof.Machine

open Sys2Proof Sys2Proof.Machine

/-- Settles O59: by the ledger of each operation (`exec_writes`), of a step (`step_writes`) and of the rest of a `TX.PULL`. -/
theorem longLivedStateHasItsWriters : Obligations.LongLivedStateHasItsWriters := by
  unfold Obligations.LongLivedStateHasItsWriters
  refine ⟨fun s t h => ?_, fun s t h => (finishPull_writes h).onlyPullCounts, fun i s t h => ?_⟩
  · obtain ⟨W, hw⟩ := step_writes h
    exact ⟨hw.cfg, hw.statsGrow, hw.statsCountActs, fun e rest hp ho => step_event_stats h hp ho⟩
  · have hw := exec_writes h
    refine ⟨hw.statsCountActs, ?_, ?_, ?_, exec_resetCount h, exec_medium h, hw.doneCount.imp_right reclaims_of_mem⟩
    · have hd (c : Stat) (hc : .stat c ∈ pullStats) := (hw.stats c).imp_right (Or.imp (transmits_of_mem hc) And.right)
      exact (hd .txDrop (by simp [pullStats])).elim (fun h1 => (hd .txResErr (by simp [pullStats])).imp_left (⟨h1, ·⟩)) .inr
    · by_cases hi : .stat .txStall ∈ entriesOf i
      · exact .inr (txq_of_mem hi)
      · exact .inl (hw.stat_eq hi (by simp [pullStats]))
    · by_cases hi : i = .irqDispatch ∨ ∃ b, i = .rxDrain b ∨ i = .pollService b
      · exact .inr hi
      · have he (c : Stat) (hc : .stat c ∈ rxStats) (hp : .stat c ∉ pullStats) :=
          hw.stat_eq (fun hm => hi (drains_of_mem hc hm)) hp
        refine .inl ⟨he .rxLenErr ?_ ?_, he .rxErr ?_ ?_, he .rxResErr ?_ ?_, he .rxDelivered ?_ ?_⟩ <;>
          simp [rxStats, pullStats]
end

section
/-! SUPPORT. Ring index arithmetic over a ring of `2 ^ e` slots (40_rings.md R140), and the constraints of a usable configuration
as equations and bounds (70_reset_and_hazards.md R286). -/

namespace Sys2Proof.Machine

theorem isPow2_iff {n : Nat} : isPow2 n = true ↔ ∃ e, n = 2 ^ e := by
  simp only [isPow2, Bool.and_eq_true, bne_iff_ne, beq_iff_eq]
  constructor
  · rintro ⟨h0, h⟩
    refine ⟨n.log2, ?_⟩
    have hle : 2 ^ n.log2 ≤ n := Nat.log2_self_le h0
    have hlt : n < 2 ^ (n.log2 + 1) := Nat.lt_log2_self
    by_contra hne
    have h1 : n.testBit n.log2 = true := Nat.testBit_of_two_pow_le_and_two_pow_add_one_gt hle hlt
    have h2 : (n - 1).testBit n.log2 = true :=
      Nat.testBit_of_two_pow_le_and_two_pow_add_one_gt (by omega) (by omega)
    simpa [h1, h2] using congrArg (Nat.testBit · n.log2) h
  · rintro ⟨e, rfl⟩
    exact ⟨by positivity, by simp [Nat.and_two_pow_sub_one_eq_mod]⟩

section
variable {e : Nat} (he : e ≤ 16)
include he

theorem two_pow_le_half : 2 ^ e ≤ 2 ^ 16 := Nat.pow_le_pow_right (by omega) he

theorem inc_toNat (i : Half) (k : Nat) : (inc i k (2 ^ e)).toNat = (i.toNat + k) % 2 ^ e := by
  have hlt : (i.toNat + k) % 2 ^ e < 2 ^ e := Nat.mod_lt _ (by positivity)
  simp only [inc, BitVec.toNat_ofNat, Nat.and_two_pow_sub_one_eq_mod]
  exact Nat.mod_eq_of_lt (hlt.trans_le (two_pow_le_half he))

/-- Steps taken one after another are steps taken together. -/
theorem inc_inc (i : Half) (j k : Nat) : inc (inc i j (2 ^ e)) k (2 ^ e) = inc i (j + k) (2 ^ e) := by
  apply BitVec.eq_of_toNat_eq
  rw [inc_toNat he, inc_toNat he, inc_toNat he, Nat.mod_add_mod, Nat.add_assoc]

theorem inc_zero {i : Half} (h : i.toNat < 2 ^ e) : inc i 0 (2 ^ e) = i :=
  BitVec.eq_of_toNat_eq (by rw [inc_toNat he, Nat.add_zero, Nat.mod_eq_of_lt h])

theorem dist_eq {a b : Half} (ha : a.toNat < 2 ^ e) : dist a b (2 ^ e) = (2 ^ e - a.toNat + b.toNat) % 2 ^ e := by
  obtain ⟨k, hk⟩ := Nat.pow_dvd_pow 2 he
  have hp : 0 < 2 ^ e := by positivity
  simp only [dist, Nat.and_two_pow_sub_one_eq_mod, BitVec.toNat_sub]
  rw [hk, Nat.mod_mul_right_mod]
  have hk1 : 0 < k := by
    rcases Nat.eq_zero_or_pos k with rfl | h
    · simp at hk
    · exact h
  obtain ⟨k, rfl⟩ := Nat.exists_eq_add_of_lt hk1
  have hs : 2 ^ e * (0 + k + 1) - a.toNat + b.toNat = 2 ^ e - a.toNat + b.toNat + 2 ^ e * k := by
    rw [Nat.zero_add, Nat.mul_add, Nat.mul_one]; omega
  rw [hs, Nat.add_mul_mod_self_left]

/-- The steps forward: straight, or once around. -/
theorem dist_eq_ite {a b : Half} (ha : a.toNat < 2 ^ e) (hb : b.toNat < 2 ^ e) :
    dist a b (2 ^ e) = if a.toNat ≤ b.toNat then b.toNat - a.toNat else 2 ^ e - a.toNat + b.toNat := by
  rw [dist_eq he ha]
  split
  · rw [show 2 ^ e - a.toNat + b.toNat = b.toNat - a.toNat + 2 ^ e by omega, Nat.add_mod_right, Nat.mod_eq_of_lt (by omega)]
  · exact Nat.mod_eq_of_lt (by omega)

theorem inc_one_eq_ite {i : Half} (h : i.toNat < 2 ^ e) :
    (inc i 1 (2 ^ e)).toNat = if i.toNat + 1 = 2 ^ e then 0 else i.toNat + 1 := by
  rw [inc_toNat he]
  split
  · rename_i hw; rw [hw, Nat.mod_self]
  · exact Nat.mod_eq_of_lt (by omega)

/-- The producer moves on: as many more steps from a consumer, while they fit the ring. -/
theorem dist_inc_right {a b : Half} {k : Nat} (ha : a.toNat < 2 ^ e) (hk : dist a b (2 ^ e) + k < 2 ^ e) :
    dist a (inc b k (2 ^ e)) (2 ^ e) = dist a b (2 ^ e) + k := by
  rw [dist_eq he ha] at hk ⊢
  rw [dist_eq he ha, inc_toNat he, Nat.add_mod_mod, ← Nat.add_assoc, Nat.add_mod]
  rw [Nat.mod_eq_of_lt (a := k) (by omega), Nat.mod_eq_of_lt hk]

/-- The consumer moves on: one step less, while there is one. -/
theorem dist_inc_left {a b : Half} (ha : a.toNat < 2 ^ e) (hb : b.toNat < 2 ^ e) (hd : 0 < dist a b (2 ^ e)) :
    dist (inc a 1 (2 ^ e)) b (2 ^ e) = dist a b (2 ^ e) - 1 := by
  have hi := inc_one_eq_ite he ha
  rw [dist_eq_ite he ha hb] at hd ⊢
  rw [dist_eq_ite he (by split at hi <;> omega) hb, hi]
  split_ifs at hd ⊢ <;> omega

theorem dist_eq_zero {a b : Half} (ha : a.toNat < 2 ^ e) (hb : b.toNat < 2 ^ e) : dist a b (2 ^ e) = 0 ↔ a = b := by
  rw [dist_eq_ite he ha hb, ← BitVec.toNat_inj]
  split <;> omega

end

@[simp] theorem dist_self (a : Half) (n : Nat) : dist a a n = 0 := by simp [dist]

end Sys2Proof.Machine
end

section
/-! SUPPORT. What the invariants of the rings read of a state, and the operations that leave all of it as it was. -/

namespace Sys2Proof.Machine

/-- The cursors, counters, tracking arrays and flags the invariants of the rings and of the pool speak of (10_state.md R21 to R35,
R47, R49), with where the PULLER stands. -/
structure RingState where
  cfg : Cfg
  txNext : Half
  dirty : Half
  numFree : Word
  frames : List (Option Frame)
  rxNext : Half
  rxFree : Half
  bufs : List (Option Buf)
  spare : List Buf
  enabled : Bool
  ringsUp : Bool
  puller : PullPhase
  nextBuf : Nat

/-- The ring state of a state. -/
def ringState (s : State) : RingState where
  cfg := s.cfg
  txNext := s.tx.next
  dirty := s.tx.dirty
  numFree := s.tx.numFree
  frames := s.tx.mbuf
  rxNext := s.rx.next
  rxFree := s.rx.free
  bufs := s.rx.mbuf
  spare := s.pool.spare
  enabled := s.flags.enabled
  ringsUp := s.flags.ringsUp
  puller := s.puller
  nextBuf := s.env.nextBuf

/-! ### The environment's calls give out no buffer but `BufAlloc` -/

@[simp] theorem dropRegion_nextBuf (r : Region) (s : State) : (dropRegion r s).env.nextBuf = s.env.nextBuf := rfl

@[simp] theorem bufReturn_nextBuf (r : Region) (s : State) : (bufReturn r s).env.nextBuf = s.env.nextBuf := by
  unfold bufReturn
  split <;> simp

@[simp] theorem hwReadLink_nextBuf (s : State) : (hwReadLink s).2.env.nextBuf = s.env.nextBuf := by
  unfold hwReadLink
  split <;> rfl

@[simp] theorem hwCall_nextBuf (c : HwCall) (s : State) : (hwCall c s).2.env.nextBuf = s.env.nextBuf := by
  obtain ⟨e, he, h⟩ := hwCall_cases c s
  have hn : e.nextBuf = s.env.nextBuf := by rw [he]
  obtain h | ⟨d, h⟩ := h <;> simp [h, hn]

@[simp] theorem hwCalls_nextBuf (l : List HwCall) (s : State) : (hwCalls l s).2.env.nextBuf = s.env.nextBuf := by
  induction l generalizing s with
  | nil => rfl
  | cons c rest ih =>
    unfold hwCalls
    rcases h : hwCall c s with ⟨_ | _, s1⟩ <;> cases congrArg Prod.snd h <;> simp [ih]

@[simp] theorem freeAll_nextBuf (l : List Buf) (s : State) : (freeAll l s).env.nextBuf = s.env.nextBuf := by rw [freeAll_eq]

/-! ### What leaves the ring state as it was -/

@[simp] theorem ringState_setters (s : State) :
    (∀ v, ringState (s.setStats v) = ringState s) ∧ (∀ v, ringState (s.setWdt v) = ringState s) ∧
    (∀ v, ringState (s.setLink v) = ringState s) ∧ (∀ v, ringState (s.setMedium v) = ringState s) ∧
    (∀ v, ringState (s.setIntrMask v) = ringState s) ∧ (∀ v, ringState (s.setMac v) = ringState s) ∧
    (∀ v, ringState (s.setMem v) = ringState s) ∧ (∀ v, ringState (s.setLate v) = ringState s) ∧
    (∀ v, ringState (s.setPosted v) = ringState s) ∧ (∀ v, ringState (s.setForeign v) = ringState s) ∧
    (∀ v, ringState (s.setPending v) = ringState s) ∧ (∀ v, ringState (s.setResult v) = ringState s) ∧
    (∀ a, ringState (s.emit a) = ringState s) ∧ ∀ f p, ringState (s.setArgs f p) = ringState s := by
  refine ⟨?_, ?_, ?_, ?_, ?_, ?_, ?_, ?_, ?_, ?_, ?_, ?_, ?_, ?_⟩ <;> intros <;> rfl

@[simp] theorem ringState_setEnv {s : State} {v : Env} (h : v.nextBuf = s.env.nextBuf) :
    ringState (s.setEnv v) = ringState s :=
  congrArg (fun n => { ringState s with nextBuf := n }) h

@[simp] theorem ringState_setFlags {s : State} {v : Flags} (he : v.enabled = s.flags.enabled)
    (hr : v.ringsUp = s.flags.ringsUp) : ringState (s.setFlags v) = ringState s := by
  simp [ringState, he, hr]

@[simp] theorem ringState_stalled (s : State) (b : Bool) : ringState (s.setTx { s.tx with stalled := b }) = ringState s := rfl

@[simp] theorem ringState_raise (e : CoreEvent) (s : State) : ringState (raise e s) = ringState s := by simp [ringState]

@[simp] theorem ringState_log (t : LogText) (s : State) : ringState (log t s) = ringState s := by simp [ringState]

@[simp] theorem ringState_regWrite (r : Reg) (v : Word) (s : State) : ringState (regWrite r v s) = ringState s := by
  simp [ringState]

@[simp] theorem ringState_writeIntrMask (m : Word) (s : State) : ringState (writeIntrMask m s) = ringState s := by
  simp [ringState]

@[simp] theorem ringState_offerAll (s : State) : ringState (offerAll s) = ringState s := by simp [ringState]

@[simp] theorem ringState_signalResumable (s : State) : ringState (signalResumable s) = ringState s := by
  simp [signalResumable]

@[simp] theorem ringState_hwReadLink (s : State) : ringState (hwReadLink s).2 = ringState s := by simp [ringState]

@[simp] theorem ringState_hwCall (c : HwCall) (s : State) : ringState (hwCall c s).2 = ringState s := by simp [ringState]

@[simp] theorem ringState_hwCalls (l : List HwCall) (s : State) : ringState (hwCalls l s).2 = ringState s := by
  simp [ringState]

@[simp] theorem ringState_haltMac (s : State) : ringState (haltMac s) = ringState s := by simp [haltMac]

@[simp] theorem ringState_resetForDisable (s : State) : ringState (resetForDisable s) = ringState s := by
  unfold resetForDisable
  rcases h : hwCall .macReset s with ⟨_ | _, s1⟩ <;> cases congrArg Prod.snd h <;> simp

@[simp] theorem ringState_advertise (m : BitVec 5) (s : State) : ringState (advertise m s) = ringState s := by
  unfold advertise
  rcases h : hwCall (.setAdvertise m) s with ⟨_ | _, s1⟩ <;> cases congrArg Prod.snd h <;> simp

@[simp] theorem ringState_macStep (m : MacStep) (s : State) : ringState (macStep m s) = ringState s := by simp [ringState]

@[simp] theorem ringState_offerFrame (f : Frame) (s : State) : ringState (offerFrame f s) = ringState s := by
  simp [offerFrame]

@[simp] theorem ringState_hostWrite (a : Addr) (l : List Byte) (s : State) : ringState (hostWrite a l s) = ringState s := by
  simp [ringState]

@[simp] theorem ringState_bufReturn (r : Region) (s : State) : ringState (bufReturn r s) = ringState s := by simp [ringState]

@[simp] theorem ringState_releaseFrame (f : Frame) (b : Bool) (s : State) :
    ringState (releaseFrame f b s) = ringState s := by simp [ringState]

@[simp] theorem ringState_dropPoint (s : State) : ringState (dropPoint s) = ringState s := by simp [dropPoint]

@[simp] theorem ringState_dropFrame (e : CoreEvent) (r : Result) (f : Frame) (s : State) :
    ringState (dropFrame e r f s) = ringState s := by simp [ringState]

@[simp] theorem ringState_refillCheck (s : State) : ringState (refillCheck s) = ringState s := by
  unfold refillCheck
  split
  · rfl
  · rfl

@[simp] theorem ringState_wdtArm (s : State) : ringState (wdtArm s) = ringState s := by simp [wdtArm]

@[simp] theorem ringState_wdtCancel (s : State) : ringState (wdtCancel s) = ringState s := by simp [wdtCancel]

@[simp] theorem ringState_disableInterrupts (s : State) : ringState (disableInterrupts s) = ringState s := by
  simp [ringState]

@[simp] theorem ringState_logAlert (w : Word) (s : State) : ringState (logAlert w s) = ringState s := by
  unfold logAlert
  split <;> simp

@[simp] theorem ringState_refuse (s : State) : ringState (refuse s) = ringState s := by simp [refuse]

@[simp] theorem ringState_refuseMedium (s : State) : ringState (refuseMedium s) = ringState s := by simp [refuseMedium]

@[simp] theorem ringState_refuseWord (e : DecodeError) (s : State) : ringState (refuseWord e s) = ringState s := by
  cases e <;> simp [refuseWord]

@[simp] theorem ringState_setPollMode (on : Bool) (s : State) : ringState (setPollMode on s) = ringState s := by
  unfold setPollMode
  split <;> simp

end Sys2Proof.Machine
end

section
/-! SUPPORT. What every operation keeps of an invariant of the rings: the invariant's own conditions, and from them each operation
in the order of the model's files. -/

namespace Sys2Proof.Machine

/-! ### Outcomes -/

/-- What an operation answers: a next state that meets `P`, a fault among `ok`, or a refusal. -/
def Answers (P : State → Prop) (ok : Fault → Prop) : Out → Prop
  | .next t => P t
  | .fault r => ok r
  | .refused _ => True

variable {P Q : State → Prop} {ok : Fault → Prop} {s t : State}

theorem Answers.mono {o : Out} (h : Answers P ok o) (hPQ : ∀ s, P s → Q s) : Answers Q ok o := by
  cases o with
  | next t => exact hPQ _ h
  | fault r => exact h
  | refused r => exact h

theorem Answers.andThen {o : Out} {f : State → Out} (h : Answers P ok o) (hf : ∀ s, P s → Answers Q ok (f s)) :
    Answers Q ok (andThen o f) := by
  cases o with
  | next t => exact hf _ h
  | fault r => exact h
  | refused r => exact h

/-- An operation that never stops with a fault. -/
def NeverFaults (o : Out) : Prop := ∀ r, o ≠ .fault r

theorem NeverFaults.answers {o : Out} (hn : NeverFaults o) (h : ∀ t, o = .next t → P t) : Answers P ok o := by
  cases o with
  | next t => exact h t rfl
  | fault r => exact absurd rfl (hn r)
  | refused r => trivial

theorem NeverFaults.andThen {o : Out} {f : State → Out} (h : NeverFaults o) (hf : ∀ s, NeverFaults (f s)) :
    NeverFaults (andThen o f) := by
  cases o with
  | next t => exact hf t
  | fault r => exact absurd rfl (h r)
  | refused r => exact fun _ => nofun

theorem enqueue_neverFaults (m : TsoMode) (room : Bool) (f : Frame) (s : State) : NeverFaults (enqueue m room f s) := by
  have hr (l : List Seg) (u : State) : NeverFaults (enqueueReserved m f l u) := by
    intro r
    unfold enqueueReserved
    split
    · split <;> nofun
    · nofun
  intro r
  unfold enqueue
  split
  · nofun
  split
  · nofun
  split
  · nofun
  · nofun
  dsimp only
  split
  · nofun
  · exact hr _ _ r

theorem pullStep_neverFaults (s : State) : NeverFaults (pullStep s) := by
  unfold pullStep
  split
  · exact fun _ => nofun
  · exact fun _ => nofun
  · exact fun _ => nofun
  · exact NeverFaults.andThen (enqueue_neverFaults _ _ _ _) fun _ _ => nofun

theorem pullTurn_neverFaults (s : State) : NeverFaults (pullTurn s) := by
  unfold pullTurn
  split
  · exact fun _ => nofun
  split
  · exact pullStep_neverFaults s
  · exact fun _ => nofun

theorem finishPull_neverFaults (s : State) : NeverFaults (finishPull s) := by
  have run (n : Nat) : ∀ s, NeverFaults (pullRun n s) := by
    induction n with
    | zero => exact fun _ _ => nofun
    | succ n ih =>
      intro s
      unfold pullRun
      split
      · exact (pullStep_neverFaults _).andThen ih
      · exact fun _ => nofun
  exact run _ s

theorem reclaim_neverFaults (s : State) : NeverFaults (reclaim s) := by
  unfold reclaim
  split <;> exact fun _ => nofun

theorem linkEval_neverFaults (s : State) : NeverFaults (linkEval s) := by
  unfold linkEval linkEvalOn
  dsimp only
  split
  · exact fun _ => nofun
  · split <;> exact fun _ => nofun

/-! ### Other agents -/

/-- A property of the ring state that the PULLER's accesses keep, and so every other agent (00_scope.md R17). -/
structure AgentInvariant (P : State → Prop) : Prop where
  congr : ∀ {s t : State}, ringState t = ringState s → P s → P t
  begins : ∀ {s : State}, s.puller = .idle → P s → P (beginPull s)
  access : ∀ {s t : State}, pullStep s = .next t → P s → P t

namespace AgentInvariant

theorem and_enabled (h : AgentInvariant P) : AgentInvariant fun s => P s ∧ s.flags.enabled = true where
  congr := fun he hs => ⟨h.congr he hs.1, (congrArg RingState.enabled he).trans hs.2⟩
  begins := fun hp hs => ⟨h.begins hp hs.1, by simpa using hs.2⟩
  access := fun hp hs => ⟨h.access hp hs.1, by rw [(pullStep_frame hp).2.2.2.1]; exact hs.2⟩

theorem pullTurn (h : AgentInvariant P) (hp : pullTurn s = .next t) (hs : P s) : P t := by
  obtain rfl | ⟨-, ⟨hi, -, rfl⟩ | ⟨-, hp⟩⟩ := pullTurn_cases hp
  · exact hs
  · exact h.begins hi hs
  · exact h.access hp hs

theorem midStep (h : AgentInvariant P) (m : MidStep) (s : State) (hs : P s) : P (midStep m s) := by
  obtain he | ⟨a, he⟩ | he | ⟨f, he⟩ | ⟨a, l, he⟩ | ⟨r, he⟩ := midStep_cases m s
  case inr.inr.inl => exact h.pullTurn he hs
  all_goals exact h.congr (by simp [he]) hs

theorem macPoint (h : AgentInvariant P) (hs : P s) : P (macPoint s) :=
  macPoint_keeps (P := P) (fun s => h.congr (ringState_dropPoint s)) h.midStep hs

theorem flushOutbound (h : AgentInvariant P) (hs : P s) : P (flushOutbound s) :=
  flushLoop_keeps (P := P) (fun _ => h.macPoint) (fun _ _ _ ht _ => h.congr (by simp) ht) _ hs

theorem finishPull (h : AgentInvariant P) (hp : finishPull s = .next t) (hs : P s) : P t :=
  pullRun_keeps (P := P) (fun _ => h.macPoint) (fun _ _ ht ha => h.access ha ht) _ hs hp

end AgentInvariant

/-! ### What assembling a frame leaves (43_buffer_pool.md R225) -/

/-- The state an assembled or lost frame leaves meets `P`; a slot without its buffer is met only where `q` holds. -/
def Assembled.Leaves (P : State → Prop) (q : Prop) : Assembled → Prop
  | .chain _ s => P s
  | .lost s => P s
  | .unposted => q

section
variable {R : Half → Prop} {q : Prop} (hn : ∀ s i, P s → R (inc i 1 s.cfg.nRfd))
  (hq : ∀ s i, P s → R i → postedBuf s i = none → q)
  (ha : ∀ s i d b, P s → postedBuf s i = some b → P (acquire i d b s).2) (hf : ∀ l s, P s → P (freeAll l s))
include hn hq ha hf

/-- What acquiring a buffer for a posted slot and freeing a chain keep, the loop keeps; `R` says which slots it visits. -/
theorem assembleLoop_leaves (n : Nat) {i : Half} (left : Nat) (got : List Buf) {s : State} (hi : R i) (hs : P s) :
    (assembleLoop n i left got s).Leaves P q := by
  induction n generalizing i left got s with
  | zero => exact hs
  | succ n ih =>
    simp only [assembleLoop]
    split
    · exact ih _ _ (hn s i hs) hs
    · split
      · rename_i hb
        exact hq s i hs hi hb
      · rename_i b hb
        have hs1 := ha s i (min left s.cfg.rxBufSize) b hs hb
        split <;> rename_i h <;> rw [h] at hs1
        · exact ih _ _ (hn _ i hs1) hs1
        · exact hf _ _ hs1

theorem assemble_leaves {i : Half} (n len : Nat) {s : State} (hi : R i) (hs : P s) :
    (assemble i n len s).Leaves P q := by
  unfold assemble
  split
  · split
    · rename_i hb
      exact hq s i hs hi hb
    · rename_i b hb
      have hs1 := ha s i len b hs hb
      split <;> rename_i h <;> rw [h] at hs1 <;> exact hs1
  · exact assembleLoop_leaves hn hq ha hf n len [] hi hs

end

/-- A processed completion leaves the configuration, the transmit side, the flags and the PULLER alone. -/
theorem drainOne_frame (h : drainOne s = .next t) :
    t.cfg = s.cfg ∧ t.tx = s.tx ∧ t.flags = s.flags ∧ t.puller = s.puller := by
  have hl := assemble_leaves (P := fun u => u.cfg = s.cfg ∧ u.tx = s.tx ∧ u.flags = s.flags ∧ u.puller = s.puller)
    (R := fun _ => True) (q := True) (fun _ _ _ => trivial) (fun _ _ _ _ _ => trivial)
    (fun u i d b hu _ => by simpa using hu) (fun l u hu => by simpa using hu)
    (rrdCompletion s).count ((rrdCompletion s).len - s.cfg.crcLen) (i := (rrdCompletion s).start) trivial ⟨rfl, rfl, rfl, rfl⟩
  obtain ⟨-, s1, rfl, rfl | rfl | ⟨-, ⟨l, s2, he, rfl⟩ | ⟨s2, he, rfl⟩⟩⟩ := drainOne_cases h
  · simp
  · simp
  · rw [he] at hl
    simpa [Assembled.Leaves] using hl
  · rw [he] at hl
    simpa [Assembled.Leaves] using hl

/-! ### RING.SETUP -/

/-- Everything `RING.SETUP` can do: fail for want of a region, stand, or be unwound (40_rings.md R145). -/
theorem ringSetup_cases (s : State) :
    (∃ s1, allocRegions s = (none, s1) ∧ ringSetup s = setupFail s1) ∨
    ∃ t r q s1 s2, allocRegions s = (some (t, r, q), s1) ∧
      (postBuffers s1.cfg.nRfd 0 (placeRings t r q s1) = (true, s2) ∧ ringSetup s = setupDone s2 ∨
        postBuffers s1.cfg.nRfd 0 (placeRings t r q s1) = (false, s2) ∧ ringSetup s = unwind s2) := by
  unfold ringSetup
  rcases h : allocRegions s with ⟨_ | ⟨t, r, q⟩, s1⟩
  · exact .inl ⟨s1, rfl, rfl⟩
  · dsimp only
    rcases h2 : postBuffers s1.cfg.nRfd 0 (placeRings t r q s1) with ⟨_ | _, s2⟩
    · exact .inr ⟨t, r, q, s1, s2, rfl, .inr ⟨h2, rfl⟩⟩
    · exact .inr ⟨t, r, q, s1, s2, rfl, .inl ⟨h2, rfl⟩⟩

/-- `RING.SETUP` leaves an interface as enabled as it was, and where it answers `OK` the rings stand. -/
theorem ringSetup_flags (s : State) :
    (ringSetup s).flags.enabled = s.flags.enabled ∧ ((ringSetup s).result = .ok → (ringSetup s).flags.ringsUp = true) := by
  obtain ⟨s1, h1, h⟩ | ⟨t, r, q, s1, s2, h1, ⟨h2, h⟩ | ⟨h2, h⟩⟩ := ringSetup_cases s
  · cases congrArg Prod.snd h1
    simp [h, setupFail]
  · cases congrArg Prod.snd h1
    cases congrArg Prod.snd h2
    simp [h, setupDone]
  · cases congrArg Prod.snd h1
    cases congrArg Prod.snd h2
    simp [h, unwind, setupFail, dropArrays]

/-! ### The operations -/

/-- A property of the ring state that other agents keep, and that the operations which change the ring state keep. -/
structure RingInvariant (P : State → Prop) (ok : Fault → Prop) : Prop extends AgentInvariant P where
  unbounded : ok .drainUnbounded
  enqueues : ∀ {m : TsoMode} {f : Frame} {s t : State}, s.puller = .idle → enqueue m true f s = .next t → P s → P t
  reclaims : ∀ {s t : State}, s.flags.enabled = true → reclaim s = .next t → P s → P t
  drains : ∀ {s : State}, s.flags.enabled = true → P s → Answers P ok (drainOne s)
  refills : ∀ {s : State}, P s → P (refill s)
  sets_up : ∀ {s : State}, s.flags.enabled = false → s.flags.ringsUp = false → P s → P (ringSetup s)
  tears_down : ∀ {s : State}, s.flags.enabled = false → P s → P (ringTeardown s)
  clears_tx : ∀ {s : State}, P s → P (txClear s)
  resets_rx : ∀ {s : State}, P s → P (rxResetRings s)
  disables : ∀ {s : State}, P s → P (clearModeFlags s)
  enables : ∀ {s : State}, s.flags.ringsUp = true → P s → P (s.setFlags { s.flags with enabled := true })

namespace RingInvariant

variable (h : RingInvariant P ok)
include h

/-! #### Receive -/

theorem drainLoop (n : Nat) (he : s.flags.enabled = true) (hs : P s) :
    Answers (fun t => P t ∧ t.flags.enabled = true) ok (drainLoop n s) := by
  induction n generalizing s with
  | zero => exact ⟨hs, he⟩
  | succ n ih =>
    obtain ⟨hs1, he1⟩ := h.and_enabled.macPoint (s := s) ⟨hs, he⟩
    simp only [Machine.drainLoop]
    split
    · have hd := h.drains he1 hs1
      cases ho : Machine.drainOne (Machine.macPoint s) with
      | next t =>
        rw [ho] at hd
        exact ih (by rw [(drainOne_frame ho).2.2.1]; exact he1) hd
      | fault r => rw [ho] at hd; exact hd
      | refused r => trivial
    · exact ⟨hs1, he1⟩

theorem drain (b : Option Nat) (he : s.flags.enabled = true) (hs : P s) : Answers P ok (drain b s) := by
  unfold Machine.drain
  split
  · refine (h.drainLoop _ (by simpa using he) (h.congr (by simp) hs)).andThen fun t ht => ?_
    unfold drainEnd
    split
    · exact h.unbounded
    · exact h.congr (by simp) ht.1
  · trivial

theorem rxService (he : s.flags.enabled = true) (hs : P s) : Answers P ok (rxService s) := by
  refine (h.drain _ he hs).andThen fun t ht => ?_
  change P _
  split
  · exact ht
  · exact h.congr (by simp [flushInboundBatch]) ht

/-! #### Transmit -/

theorem txq (m : TsoMode) (hs : P s) : Answers P ok (andThen (finishPull s) fun u => enqueue m true u.frameArg u) :=
  ((finishPull_neverFaults s).andThen fun _ => enqueue_neverFaults _ _ _ _).answers fun t ht => by
    obtain ⟨u, hu, ht⟩ := andThen_eq_next.1 ht
    exact h.enqueues (finishPull_idle hu) ht (h.finishPull hu hs)

theorem txPull (hs : P s) : Answers P ok (execTxPull s) := by
  have hp : NeverFaults (execTxPull s) :=
    (finishPull_neverFaults s).andThen fun u => (finishPull_neverFaults _).andThen fun _ _ => nofun
  refine hp.answers fun t ht => ?_
  obtain ⟨u, hu, ht⟩ := andThen_eq_next.1 ht
  obtain ⟨v, hv, ht⟩ := andThen_eq_next.1 ht
  cases ht
  exact h.congr (by simp) (h.finishPull hv (h.begins (finishPull_idle hu) (h.finishPull hu hs)))

/-- A reclaim changes no flag of the mode. -/
theorem reclaim (he : s.flags.enabled = true) (hs : P s) :
    Answers (fun t => P t ∧ t.flags.enabled = true) ok (reclaim s) := by
  refine (reclaim_neverFaults s).answers fun t ht => ⟨h.reclaims he ht hs, ?_⟩
  unfold Machine.reclaim at ht
  split at ht <;> cases ht
  simpa [reclaimTo] using he

theorem reclaimIfEnabled (hs : P s) : Answers P ok (reclaimIfEnabled s) := by
  unfold Machine.reclaimIfEnabled
  split
  · rename_i he
    exact (h.reclaim he hs).mono fun _ => And.left
  · exact h.congr (ringState_refuse s) hs

/-! #### Control -/

theorem devDisable (hs : P s) : P (devDisable s) := by
  unfold Machine.devDisable
  split
  · have h1 : P (clearModeFlags (disableInterrupts (wdtCancel s))) := h.disables (h.congr (by simp) hs)
    have h2 := h.congr (ringState_resetForDisable _) (h.flushOutbound (h.macPoint h1))
    exact h.congr (by simp [disableSteps]) (h.tears_down (by simp [clearModeFlags]) (h.macPoint h2))
  · exact h.congr (by simp) hs

theorem abortAdmin (hs : P s) : P (abortAdmin s) :=
  h.congr (by simp [Machine.abortAdmin]) (h.devDisable (h.congr (ringState_raise .cfgTimeout s) hs))

theorem enableMac (he : s.flags.enabled = false) (hr : s.flags.ringsUp = true) (hs : P s) : P (enableMac s) := by
  unfold Machine.enableMac
  rcases hc : hwCalls (enableCalls s) s with ⟨_ | _, s1⟩ <;> cases congrArg Prod.snd hc
  · have h1 : P (haltMac (raise .cfgTimeout (hwCalls (enableCalls s) s).2)) := h.congr (by simp) hs
    exact h.congr (by simp [enableAbort]) (h.tears_down (by simpa using he) h1)
  · exact h.congr (by simp [ringState, enableDone]) (h.enables hr hs)

theorem devEnable (hs : P s) : P (devEnable s) := by
  unfold Machine.devEnable
  split
  · exact h.congr (by simp) hs
  · rename_i hn
    simp only [Bool.or_eq_true, not_or, Bool.not_eq_true] at hn
    have h1 := h.sets_up hn.1 hn.2 hs
    obtain ⟨he, hr⟩ := ringSetup_flags s
    dsimp only
    split
    · rename_i hok
      exact h.enableMac (he.trans hn.1) (hr hok) h1
    · exact h1

theorem devReset (hs : P s) : P (devReset s) := by
  have h1 : P (devRestart s) := h.devEnable (h.macPoint (h.devDisable hs))
  simp only [Machine.devReset]
  split
  · exact h.congr (by simp) h1
  · exact h1

theorem linkUp (p : Link) (hs : P s) : P (linkUp p s) := by
  have h1 : P (hwCall (.macStart (some p)) (s.setLink p)).2 := h.congr (by simp) hs
  unfold Machine.linkUp
  split <;> rename_i s1 hc <;> rw [hc] at h1
  · exact h.abortAdmin h1
  · have h2 : P ((writeIntrMask (imrFull s1.cfg) s1).setFlags
        { (writeIntrMask (imrFull s1.cfg) s1).flags with linkUp := true }) := h.congr (by simp) h1
    exact h.congr (by simp) (h.macPoint h2)

theorem linkDown (hs : P s) : P (linkDown s) := by
  have h1 : P (s.setFlags { s.flags with linkUp := false }) := h.congr (by simp) hs
  have h2 : P (hwCall .macReset (linkDownStop s)).2 := h.congr (by simp [linkDownStop]) (h.flushOutbound (h.macPoint h1))
  unfold Machine.linkDown
  split <;> rename_i s1 hc <;> rw [hc] at h2
  · exact h.abortAdmin h2
  · have h3 : P (hwCalls (linkDownCalls (linkDownClear s1)) (linkDownClear s1)).2 :=
      h.congr (by simp [linkDownClear]) (h.resets_rx (h.clears_tx (h.macPoint h2)))
    dsimp only
    split <;> rename_i s2 hc2 <;> rw [hc2] at h3
    · exact h.abortAdmin h3
    · exact h.congr (by simp) h3

theorem linkEval (hs : P s) : Answers P ok (linkEval s) := by
  have hd {u : State} (hu : P u) : P (if u.flags.linkUp then Machine.linkDown u else u) := by
    split
    · exact h.linkDown hu
    · exact hu
  have hdown {u : State} (p : Link) (hu : P u) :
      P (if u.flags.linkUp && p != u.link then Machine.macPoint (Machine.linkDown u) else u) := by
    split
    · exact h.macPoint (h.linkDown hu)
    · exact hu
  have hup {u : State} (p : Link) (hu : P u) :
      P (if !u.flags.linkUp && u.flags.enabled then Machine.linkUp p u else u) := by
    split
    · exact h.linkUp p hu
    · exact hu
  have hr : P (hwReadLink s).2 := h.congr (by simp) hs
  refine (linkEval_neverFaults s).answers fun t ht => ?_
  simp only [Machine.linkEval, linkEvalOn] at ht
  split at ht
  · cases ht
    exact hd hr
  · split at ht <;> cases ht
    exact hup _ (hdown _ hr)

theorem mediumSelect (m : BitVec 5) (hs : P s) : P (mediumSelect m s) := by
  have h1 : P (s.setMedium m) := h.congr (by simp) hs
  simp only [Machine.mediumSelect]
  split
  · split
    · unfold reselect
      split
      · dsimp only
        split
        · exact h.congr (by simp) (h.linkDown h1)
        · exact h.linkDown h1
      · exact h.congr (by simp) h1
    · exact h.congr (by simp) h1
  · exact h.congr (by simp) hs

theorem wdtTick (hs : P s) : P (wdtTick s) := by
  unfold Machine.wdtTick
  split
  · split
    · simp only [stalledTick]
      split
      · exact h.devReset (h.congr (by simp) hs)
      · exact h.congr (by simp) hs
    · exact h.congr (by simp) hs
  · exact hs

theorem serve (status : Word) (he : s.flags.enabled = true) (hs : P s) : Answers P ok (serve status s) := by
  have hrx {u : State} (hu : P u ∧ u.flags.enabled = true) : Answers P ok (serveRx status u) := by
    unfold serveRx
    split
    · exact h.rxService hu.2 hu.1
    · exact hu.1
  have htx {u : State} (hu : P u) (heu : u.flags.enabled = true) :
      Answers (fun v => P v ∧ v.flags.enabled = true) ok (serveTx status u) := by
    unfold serveTx
    split
    · obtain ⟨hu1, heu1⟩ := h.and_enabled.macPoint (s := u) ⟨hu, heu⟩
      rw [Machine.reclaimIfEnabled, if_pos heu1]
      exact h.reclaim heu1 hu1
    · exact ⟨hu, heu⟩
  have hlink {u : State} (hu : P u) : Answers P ok (serveEnd status u) := by
    have hl : Answers P ok (serveLink status u) := by
      unfold serveLink
      split
      · exact h.linkEval (h.macPoint hu)
      · exact hu
    exact hl.andThen fun v hv => h.congr (t := (regWrite .isr 0#32 v).setResult .returned) (by simp) hv
  have hs1 : P (logAlert status s) := h.congr (by simp) hs
  have he1 : (logAlert status s).flags.enabled = true := by
    unfold logAlert
    split <;> simpa using he
  refine Answers.andThen (P := P) ?_ fun u hu => hlink hu
  unfold serveEngines
  split
  · exact hs1
  · exact (htx hs1 he1).andThen fun v hv => hrx hv

theorem dispatch (he : s.flags.enabled = true) (hs : P s) : Answers P ok (dispatch s) := by
  have h1 : P (dispatchEntry s) := h.congr (by simp [dispatchEntry]) (h.macPoint hs)
  simp only [Machine.dispatch]
  split
  · have h2 : P (fatalReset (dispatchEntry s)) := h.devReset (h.congr (by simp) h1)
    exact h.congr (by simp) h2
  · exact h.serve _ (by simpa [dispatchEntry] using he) h1

/-! #### One operation and one step -/

theorem exec (i : Instr) (hs : P s) : Answers P ok (exec i s) := by
  cases i with
  | ringSetup =>
    change P _
    split
    · exact h.congr (by simp) hs
    · rename_i hn
      simp only [Bool.or_eq_true, not_or, Bool.not_eq_true] at hn
      exact h.sets_up hn.1 hn.2 hs
  | ringTeardown =>
    change Answers P ok (execRingTeardown s)
    unfold execRingTeardown
    split
    · exact h.congr (ringState_refuse s) hs
    · rename_i hn
      simp only [Bool.or_eq_true, not_or, Bool.not_eq_true] at hn
      split
      · trivial
      · exact h.congr (t := (ringTeardown s).setResult .returned) (by simp) (h.tears_down hn.1 hs)
  | txClear =>
    change Answers P ok (execTxClear s)
    unfold execTxClear
    split
    · exact h.congr (ringState_refuse s) hs
    · split
      · trivial
      · exact h.congr (t := (txClear s).setResult .returned) (by simp) (h.clears_tx hs)
  | rxReset =>
    change Answers P ok (execRxReset s)
    unfold execRxReset
    split
    · exact h.congr (ringState_refuse s) hs
    · split
      · trivial
      · exact h.congr (t := (offerAll (rxResetRings s)).setResult .returned) (by simp) (h.resets_rx hs)
  | txqPlain => exact h.txq _ hs
  | txqTso4 => exact h.txq _ hs
  | txqTso6 => exact h.txq _ hs
  | txPull => exact h.txPull hs
  | txReclaim => exact h.reclaimIfEnabled hs
  | rxDrain b =>
    change Answers P ok (drainIfEnabled (budgetOf b) s)
    unfold drainIfEnabled
    split
    · exact h.drain _ (by assumption) hs
    · exact h.congr (ringState_refuse s) hs
  | poolRefill => exact h.congr (t := (refill s).setResult .returned) (by simp) (h.refills hs)
  | irqDispatch =>
    change Answers P ok (execIrqDispatch s)
    unfold execIrqDispatch
    split
    · exact h.dispatch (by assumption) hs
    · exact h.congr (t := s.setResult .returned) (by simp) hs
  | pollService b =>
    change Answers P ok (pollService (budgetOf b) s)
    unfold pollService
    split
    · rename_i he
      simp only [Bool.and_eq_true] at he
      exact (h.reclaim he.1 hs).andThen fun u hu => h.drain _ hu.2 hu.1
    · exact h.congr (t := s.setResult (.count 0)) (by simp) hs
  | pollMode on => exact h.congr (t := setPollMode on s) (by simp) hs
  | wdtTick => exact h.congr (t := (Machine.wdtTick s).setResult .returned) (by simp) (h.wdtTick hs)
  | linkUp =>
    change Answers P ok (execLinkUp s)
    unfold execLinkUp
    split
    · exact h.congr (ringState_refuse s) hs
    · split
      · exact h.linkUp _ hs
      · trivial
  | linkDown =>
    change P _
    split
    · exact h.linkDown hs
    · exact h.congr (ringState_refuse s) hs
  | devReset =>
    change P _
    split
    · exact h.devReset hs
    · exact h.congr (ringState_refuse s) hs
  | devEnable => exact h.devEnable hs
  | devDisable => exact h.devDisable hs
  | mediumSelect m => exact h.mediumSelect m hs

theorem runEvent (e : Event) (hs : P s) : Answers P ok (runEvent e s) := by
  cases e with
  | op r =>
    change Answers P ok (runRequest r s)
    unfold runRequest
    split
    · exact h.exec _ (h.congr (by simp) hs)
    · exact h.congr (t := refuseWord _ (s.setArgs r.frame r.link)) (by simp) hs
  | mac m => exact h.congr (t := macStep m s) (by simp) hs
  | pull => exact (pullTurn_neverFaults s).answers fun t ht => h.pullTurn ht hs
  | offer f => exact h.congr (t := offerFrame f s) (by simp) hs
  | answer a => exact h.congr (t := s.setEnv (settleAnswer a s.env)) (ringState_setEnv (by cases a <;> rfl)) hs
  | allocFail k => exact h.congr (ringState_setEnv rfl) hs
  | hostWrite a l => exact h.congr (t := hostWrite a l s) (by simp) hs
  | bufReturn r => exact h.congr (t := bufReturn r s) (by simp) hs
  | ceaseless on => exact h.congr (ringState_setEnv rfl) hs
  | slowBus on => exact h.congr (ringState_setEnv rfl) hs

/-- What every operation keeps, every step keeps. -/
theorem step (hs : P s) : Answers P ok (step s) := by
  unfold Machine.step
  split
  · unfold runNext
    split
    · unfold runIdle
      split
      · exact h.exec _ hs
      split
      · exact h.exec _ hs
      split
      · exact (finishPull_neverFaults s).answers fun t ht => h.finishPull ht hs
      split
      · exact h.exec _ hs
      · exact hs
    · exact h.runEvent _ (h.congr (by simp) hs)
  · trivial

end RingInvariant

end Sys2Proof.Machine
end

section
/-! SUPPORT. Ring conservation (10_state.md R47): what an enqueue takes, a reclaim gives back and a cleared ring has. -/

namespace Sys2Proof.Machine

/-! ### The configuration (70_reset_and_hazards.md R286) -/

/-- What R286 says of the transmit ring, in the form the proofs use. -/
theorem Cfg.tx_of_valid {c : Cfg} (h : c.valid = true) :
    (∃ e ≤ 16, c.nTx = 2 ^ e) ∧ c.maxSegs + 2 ≤ c.pullReserve ∧ c.maxSegs + 2 ≤ c.nTx ∧ 3 ≤ c.txSafetyMargin := by
  simp only [Cfg.valid, Cfg.ringsValid, Cfg.roomValid, Bool.and_eq_true, decide_eq_true_eq] at h
  obtain ⟨⟨⟨⟨⟨⟨⟨⟨⟨⟨⟨hpow, -⟩, -⟩, -⟩, hmax⟩, -⟩, -⟩, -⟩, ⟨⟨-, hmargin⟩, hreserve⟩, hroom⟩, -⟩, -⟩, -⟩ := h
  obtain ⟨e, he⟩ := isPow2_iff.1 hpow
  refine ⟨⟨e, ?_, he⟩, hreserve, ?_, hmargin⟩
  · by_contra hlt
    have : 2 ^ 17 ≤ 2 ^ e := Nat.pow_le_pow_right (by omega) (by omega)
    omega
  · split at hroom <;> simp only [decide_eq_true_eq] at hroom <;> omega

/-! ### The invariant in parts -/

/-- Rings that stand have their transmit cursors inside and free plus in flight the ring's length (R21, R22, R47). -/
structure TxCounted (s : State) : Prop where
  next : s.tx.next.toNat < s.cfg.nTx
  dirty : s.tx.dirty.toNat < s.cfg.nTx
  slots : s.tx.mbuf.length = s.cfg.nTx
  free : s.tx.numFree.toInt + dist s.tx.dirty s.tx.next s.cfg.nTx = s.cfg.nTx

/-- The room the PULLER has seen is still there (20_memory.md R85). -/
def RoomSeen (s : State) : Prop := willSend s = true → (s.cfg.maxSegs + 2 : Nat) ≤ s.tx.numFree.toInt

variable {s t : State}

theorem txSound_iff : TxSound s ↔ (s.flags.enabled = true → s.flags.ringsUp = true) ∧
    (s.flags.ringsUp = true → TxCounted s ∧ RoomSeen s) := by
  refine and_congr_right fun _ => imp_congr_right fun _ => ?_
  exact ⟨fun ⟨h1, h2, h3, h4, h5⟩ => ⟨⟨h1, h2, h3, h4⟩, h5⟩, fun ⟨⟨h1, h2, h3, h4⟩, h5⟩ => ⟨h1, h2, h3, h4, h5⟩⟩

/-- A usable configuration, and ring conservation in it. -/
def Conserved (s : State) : Prop := s.cfg.valid = true ∧ TxSound s

theorem TxCounted.congr (h : ringState t = ringState s) (hs : TxCounted s) : TxCounted t := by
  simp only [ringState, RingState.mk.injEq] at h
  obtain ⟨hcfg, hnext, hdirty, hfree, hframes, -⟩ := h
  exact ⟨hnext ▸ hcfg ▸ hs.next, hdirty ▸ hcfg ▸ hs.dirty, hframes ▸ hcfg ▸ hs.slots,
    by rw [hfree, hdirty, hnext, hcfg]; exact hs.free⟩

theorem RoomSeen.congr (h : ringState t = ringState s) (hs : RoomSeen s) : RoomSeen t := by
  simp only [ringState, RingState.mk.injEq] at h
  obtain ⟨hcfg, -, -, hfree, -, -, -, -, -, -, -, hpuller, -⟩ := h
  unfold RoomSeen willSend at hs ⊢
  rw [hpuller, hcfg, hfree]
  exact hs

theorem Conserved.congr (h : ringState t = ringState s) (hs : Conserved s) : Conserved t := by
  obtain ⟨hv, hs⟩ := hs
  obtain ⟨he, hc⟩ := txSound_iff.1 hs
  have hup : t.flags.ringsUp = s.flags.ringsUp := congrArg RingState.ringsUp h
  have hen : t.flags.enabled = s.flags.enabled := congrArg RingState.enabled h
  have hcfg : t.cfg = s.cfg := congrArg RingState.cfg h
  refine ⟨hcfg ▸ hv, txSound_iff.2 ⟨by rw [hup, hen]; exact he, fun hu => ?_⟩⟩
  obtain ⟨hc, hr⟩ := hc (hup ▸ hu)
  exact ⟨hc.congr h, hr.congr h⟩

/-- What leaves the transmit side, the flags and the PULLER alone keeps it. -/
theorem Conserved.of_frame (h : t.cfg = s.cfg ∧ t.tx = s.tx ∧ t.flags = s.flags ∧ t.puller = s.puller)
    (hs : Conserved s) : Conserved t := by
  obtain ⟨hcfg, htx, hflags, hpuller⟩ := h
  unfold Conserved TxSound willSend at *
  rw [hcfg, htx, hflags, hpuller]
  exact hs

/-- Without rings, and so disabled, nothing is counted. -/
theorem Conserved.of_no_rings (hv : t.cfg.valid = true) (he : t.flags.enabled = false) (hr : t.flags.ringsUp = false) :
    Conserved t := ⟨hv, by simp [he], by simp [hr]⟩

/-- A ring that is empty is counted, whatever room the PULLER has seen (40_rings.md R145, R147). -/
theorem TxCounted.of_empty (hv : t.cfg.valid = true) (htx : t.tx = emptyTx t.cfg s.tx) : TxCounted t ∧ RoomSeen t := by
  obtain ⟨⟨e, he, hn⟩, -, hroom, -⟩ := Cfg.tx_of_valid hv
  have hle : 2 ^ e ≤ 2 ^ 16 := two_pow_le_half he
  have hpos : 0 < 2 ^ e := by positivity
  have hfree : t.tx.numFree.toInt = t.cfg.nTx := by
    rw [htx]
    simp only [emptyTx, BitVec.toInt_eq_toNat_cond, BitVec.toNat_ofNat]
    omega
  refine ⟨⟨?_, ?_, ?_, ?_⟩, fun _ => ?_⟩
  · simp [htx, emptyTx, hn]
  · simp [htx, emptyTx, hn]
  · simp [htx, emptyTx]
  · rw [hfree, htx]; simp [emptyTx]
  · rw [hfree]; exact_mod_cast hroom

/-! ### An enqueue (41_transmit.md R167 to R173) -/

theorem toInt_add_neg_ofNat {x : Word} {n : Nat} (h : (n : Int) ≤ x.toInt) : (x + -BitVec.ofNat 32 n).toInt = x.toInt - n := by
  simp only [BitVec.toInt_eq_toNat_cond, BitVec.toNat_add, BitVec.toNat_neg, BitVec.toNat_ofNat] at h ⊢
  have := x.isLt
  split_ifs at h ⊢ <;> omega

theorem fillData_tx (f : Frame) (vt : Half) (cmd : Word) (l : List Seg) (i : Half) (s : State) :
    ∃ m, m.length = s.tx.mbuf.length ∧ (fillData f vt cmd l i s).2.tx = { s.tx with mbuf := m } := by
  induction l generalizing i s with
  | nil => exact ⟨_, rfl, rfl⟩
  | cons g rest ih =>
    obtain ⟨m, hm, h⟩ := ih (inc i 1 s.cfg.nTx) (fillOne f vt cmd g rest.isEmpty i s)
    exact ⟨m, hm.trans (by simp [fillOne, setTxMbuf]), h⟩

/-- The data descriptors of a frame take one slot each. -/
theorem fillData_slot {e : Nat} (he : e ≤ 16) (f : Frame) (vt : Half) (cmd : Word) (l : List Seg) {i : Half} {s : State}
    (hn : s.cfg.nTx = 2 ^ e) (hi : i.toNat < 2 ^ e) : (fillData f vt cmd l i s).1 = inc i l.length s.cfg.nTx := by
  induction l generalizing i s with
  | nil => rw [hn, List.length_nil, inc_zero he hi, fillData]
  | cons g rest ih =>
    have hlt : (inc i 1 (2 ^ e)).toNat < 2 ^ e := inc_lt (by positivity)
    rw [fillData, hn, ih (by simpa using hn) hlt, fillOne_frame f vt cmd g rest.isEmpty i s |>.1, hn, inc_inc he,
      List.length_cons, Nat.add_comm]

/-- A context descriptor is written where the offload mode counts one (30_encoding.md R104; 41_transmit.md R167). -/
theorem headerFix_ctx {c : Cfg} {m : TsoMode} {mem m1 : Memory} {segs : List Seg} {ctx : Option Word}
    (h : headerFix c m mem segs = some (m1, ctx)) :
    descNeed m segs = segs.length + (if ctx.isSome then 1 else 0) := by
  cases m with
  | none => cases h; rfl
  | tso4 =>
    simp only [headerFix] at h
    split at h <;> cases h
    rfl
  | tso6 =>
    simp only [headerFix] at h
    split at h <;> cases h
    rfl

theorem fillPublish_tx_eq (f : Frame) (segs : List Seg) (ctx : Option Word) (s : State) :
    let p := fill f segs (frameCmd s.cfg f) (vlanField s.cfg f.vlan) ctx s
    (fillPublish f segs ctx s).tx = { p.2.tx with next := p.1 } := by
  simp [fillPublish, publish]

/-- What fill and publish leave of the transmit side: the producer index moved over the slots filled. -/
theorem fillPublish_tx {e : Nat} (he : e ≤ 16) (f : Frame) (segs : List Seg) (ctx : Option Word)
    (hn : s.cfg.nTx = 2 ^ e) (hi : s.tx.next.toNat < 2 ^ e) :
    ∃ m, m.length = s.tx.mbuf.length ∧ (fillPublish f segs ctx s).tx =
      { s.tx with next := inc s.tx.next (segs.length + (if ctx.isSome then 1 else 0)) s.cfg.nTx, mbuf := m } := by
  cases ctx with
  | none =>
    obtain ⟨m, hm, h⟩ := fillData_tx f (vlanField s.cfg f.vlan) (frameCmd s.cfg f) segs s.tx.next s
    refine ⟨m, hm, (fillPublish_tx_eq f segs none s).trans ?_⟩
    simp only [fill, h, fillData_slot he _ _ _ _ hn hi]
    rfl
  | some total =>
    have hlt : (inc s.tx.next 1 (2 ^ e)).toNat < 2 ^ e := inc_lt (by positivity)
    obtain ⟨m, hm, h⟩ := fillData_tx f (vlanField s.cfg f.vlan) (frameCmd s.cfg f) segs (inc s.tx.next 1 s.cfg.nTx)
      (fillContext (vlanField s.cfg f.vlan) (frameCmd s.cfg f) total s.tx.next s)
    refine ⟨m, hm.trans (by simp [fillContext, setTxMbuf]), (fillPublish_tx_eq f segs (some total) s).trans ?_⟩
    have hslot : (fillData f (vlanField s.cfg f.vlan) (frameCmd s.cfg f) segs (inc s.tx.next 1 s.cfg.nTx)
        (fillContext (vlanField s.cfg f.vlan) (frameCmd s.cfg f) total s.tx.next s)).1 =
        inc s.tx.next (segs.length + 1) s.cfg.nTx := by
      rw [hn, fillData_slot he _ _ _ _ (by simpa using hn) hlt]
      simp [hn, inc_inc he, Nat.add_comm]
    simp only [fill, h, hslot]
    rfl

/-- A frame published in the room there is: the slots it takes are counted. -/
theorem TxCounted.fillPublish {n : Nat} {f : Frame} {segs : List Seg} {ctx : Option Word} {u : State}
    (hv : s.cfg.valid = true) (hs : TxCounted s) (hcfg : u.cfg = s.cfg) (htx : u.tx = (addFree (-BitVec.ofNat 32 n) s).tx)
    (hn : n = segs.length + (if ctx.isSome then 1 else 0)) (hroom : (n : Int) < s.tx.numFree.toInt) :
    TxCounted (fillPublish f segs ctx u) ∧
      (Machine.fillPublish f segs ctx u).tx.numFree.toInt = s.tx.numFree.toInt - n := by
  obtain ⟨⟨e, he, hne⟩, -⟩ := Cfg.tx_of_valid hv
  obtain ⟨hnext, hdirty, hslots, hfree⟩ := hs
  have hd := dist_inc_right he (a := s.tx.dirty) (b := s.tx.next) (k := n) (hne ▸ hdirty) (by rw [← hne]; omega)
  have hf : (s.tx.numFree + -BitVec.ofNat 32 n).toInt = s.tx.numFree.toInt - n := toInt_add_neg_ofNat (by omega)
  obtain ⟨m, hm, h⟩ := fillPublish_tx he f segs ctx (s := u) (by rw [hcfg, hne]) (by rw [htx]; exact hne ▸ hnext)
  rw [← hn] at h
  have hc : (Machine.fillPublish f segs ctx u).cfg = s.cfg := by simpa using hcfg
  refine ⟨⟨?_, ?_, ?_, ?_⟩, ?_⟩ <;> rw [h, htx]
  · rw [hc, hcfg]
    exact inc_lt (by omega)
  · rw [hc]
    exact hdirty
  · rw [hc]
    exact hm.trans ((congrArg (·.mbuf.length) htx).trans hslots)
  · rw [hc, hcfg]
    simp only [addFree, State.setTx_tx]
    rw [hf, hne, hd, ← hne]
    omega
  · exact hf

/-- An enqueue that has its room keeps the count, and frees nothing. -/
theorem TxCounted.enqueue {m : TsoMode} {room : Bool} {f : Frame} (hv : s.cfg.valid = true) (hs : TxCounted s)
    (hroom : room = true ∨ (s.cfg.maxSegs + 2 : Nat) ≤ s.tx.numFree.toInt) (h : enqueue m room f s = .next t) :
    TxCounted t ∧ t.tx.numFree.toInt ≤ s.tx.numFree.toInt := by
  obtain ⟨-, -, -, hmargin⟩ := Cfg.tx_of_valid hv
  obtain ⟨-, ⟨-, rfl⟩ | ⟨-, -, rfl⟩ | ⟨segs, -, hsg, -, ⟨-, -, rfl⟩ | ⟨htest, -, m1, ctx, hfix, rfl⟩⟩⟩ := enqueue_cases h
  · exact ⟨hs.congr (by simp), by simp⟩
  · exact ⟨hs.congr (by simp), by simp⟩
  · exact ⟨⟨hs.next, hs.dirty, hs.slots, hs.free⟩, le_rfl⟩
  · have hlen : segs.length ≤ s.cfg.maxSegs := by
      unfold sgMap at hsg
      split at hsg
      · cases hsg
      · split at hsg <;> cases hsg
        rename_i hall
        simp only [Bool.and_eq_true, decide_eq_true_eq] at hall
        exact hall.1
    have hneed := headerFix_ctx hfix
    have hlt : (descNeed m segs : Int) < s.tx.numFree.toInt := by
      obtain rfl | hsaw := hroom
      · have := htest rfl
        simp only [lacksRoom, decide_eq_false_iff_not] at this
        omega
      · split at hneed <;> omega
    obtain ⟨h1, h2⟩ := hs.fillPublish (u := storeHeader m segs m1 (addFree (-BitVec.ofNat 32 (descNeed m segs)) s)) (f := f)
      hv (by simp) (by simp) hneed hlt
    exact ⟨h1, by omega⟩

/-! ### The PULLER (41_transmit.md R177) -/

/-- An access of a `TX.PULL` keeps the count and frees nothing, and the room the PULLER goes on with is room it has seen. -/
theorem TxCounted.pullStep (hv : s.cfg.valid = true) (hs : TxCounted s) (hr : RoomSeen s) (h : pullStep s = .next t) :
    (TxCounted t ∧ RoomSeen t) ∧ t.tx.numFree.toInt ≤ s.tx.numFree.toInt := by
  obtain ⟨-, hreserve, -⟩ := Cfg.tx_of_valid hv
  obtain ⟨hnext, hdirty, hslots, hfree⟩ := hs
  obtain ⟨-, rfl⟩ | ⟨-, rfl⟩ | ⟨free, hp, ⟨-, rfl⟩ | ⟨hb, ⟨-, rfl⟩ | ⟨f, rest, -, rfl⟩⟩⟩ | ⟨f, u, hp, hu, rfl⟩ :=
    pullStep_cases h
  · exact ⟨⟨⟨hnext, hdirty, hslots, hfree⟩, hr⟩, le_rfl⟩
  · refine ⟨⟨⟨hnext, hdirty, hslots, hfree⟩, fun hw => ?_⟩, le_rfl⟩
    have hb : belowReserve s.tx.numFree s.cfg = false := by simpa [willSend] using hw
    have hsaw : (s.cfg.pullReserve : Int) ≤ s.tx.numFree.toInt := not_lt.1 (of_decide_eq_false hb)
    change ((s.cfg.maxSegs + 2 : Nat) : Int) ≤ s.tx.numFree.toInt
    omega
  · exact ⟨⟨⟨hnext, hdirty, hslots, hfree⟩, nofun⟩, le_rfl⟩
  · exact ⟨⟨⟨hnext, hdirty, hslots, hfree⟩, nofun⟩, le_rfl⟩
  · exact ⟨⟨⟨hnext, hdirty, hslots, hfree⟩, fun _ => hr (by simp [willSend, hp, hb])⟩, le_rfl⟩
  · obtain ⟨⟨h1, h2, h3, h4⟩, h5⟩ :=
      TxCounted.enqueue hv ⟨hnext, hdirty, hslots, hfree⟩ (.inr (hr (by simp [willSend, hp]))) hu
    exact ⟨⟨⟨h1, h2, h3, h4⟩, nofun⟩, h5⟩

theorem Conserved.pullStep (hs : Conserved s) (h : pullStep s = .next t) : Conserved t := by
  obtain ⟨hv, hs⟩ := hs
  obtain ⟨hcfg, -, -, hflags, -⟩ := pullStep_frame h
  obtain ⟨he, hc⟩ := txSound_iff.1 hs
  refine ⟨hcfg ▸ hv, txSound_iff.2 ⟨hflags ▸ he, fun hu => ?_⟩⟩
  obtain ⟨hc, hr⟩ := hc (hflags ▸ hu)
  exact (hc.pullStep hv hr h).1

theorem Conserved.beginPull (hs : Conserved s) : Conserved (beginPull s) := by
  obtain ⟨hv, he, hc⟩ := hs
  refine ⟨hv, he, fun hu => ?_⟩
  obtain ⟨h1, h2, h3, h4, -⟩ := hc hu
  exact ⟨h1, h2, h3, h4, nofun⟩

theorem conserved_agentInvariant : AgentInvariant Conserved where
  congr := fun h hs => hs.congr h
  begins := fun _ hs => hs.beginPull
  access := fun h hs => hs.pullStep h

/-! ### Reclaim (41_transmit.md R180) -/

/-- Ring conservation with `n` slots in flight at least, which other agents do not take back: a PULLER that steps between two
reclaimed slots only sends (41_transmit.md R183). -/
def ConservedWith (n : Nat) (s : State) : Prop :=
  Conserved s ∧ s.flags.ringsUp = true ∧ s.tx.numFree.toInt + n ≤ s.cfg.nTx

theorem conservedWith_agentInvariant (n : Nat) : AgentInvariant (ConservedWith n) where
  congr := fun h ⟨hs, hu, hn⟩ => by
    refine ⟨hs.congr h, (congrArg RingState.ringsUp h).trans hu, ?_⟩
    simp only [ringState, RingState.mk.injEq] at h
    obtain ⟨hcfg, -, -, hfree, -⟩ := h
    rw [hcfg, hfree]
    exact hn
  begins := fun _ ⟨hs, hu, hn⟩ => ⟨hs.beginPull, hu, hn⟩
  access := fun h ⟨hs, hu, hn⟩ => by
    obtain ⟨hcfg, -, -, hflags, -⟩ := pullStep_frame h
    obtain ⟨hc, hr⟩ := (txSound_iff.1 hs.2).2 hu
    have hle := (hc.pullStep hs.1 hr h).2
    exact ⟨hs.pullStep h, hflags ▸ hu, by rw [hcfg]; omega⟩

theorem reclaimOne_tx (s : State) : ∃ m, m.length = s.tx.mbuf.length ∧ (reclaimOne s).tx =
    { s.tx with
      dirty := inc s.tx.dirty 1 s.cfg.nTx, doneCount := s.tx.doneCount + 1#32, numFree := s.tx.numFree + 1#32, mbuf := m } := by
  unfold reclaimOne
  dsimp only
  split
  · exact ⟨_, List.length_set, rfl⟩
  · exact ⟨_, rfl, rfl⟩

theorem toInt_add_one {x : Word} (h : x.toInt < 65536) (h0 : 0 ≤ x.toInt) : (x + 1#32).toInt = x.toInt + 1 := by
  simp only [BitVec.toInt_eq_toNat_cond, BitVec.toNat_add, BitVec.toNat_ofNat] at h h0 ⊢
  have := x.isLt
  split_ifs at h h0 ⊢ <;> omega

/-- A reclaimed slot is free, one less is in flight, and room seen is still there. -/
theorem ConservedWith.reclaimOne {n : Nat} (hs : ConservedWith (n + 1) s) : ConservedWith n (reclaimOne s) := by
  obtain ⟨⟨hv, hs⟩, hu, hn⟩ := hs
  obtain ⟨⟨e, he, hne⟩, -⟩ := Cfg.tx_of_valid hv
  obtain ⟨hen, hc⟩ := txSound_iff.1 hs
  obtain ⟨⟨hnext, hdirty, hslots, hfree⟩, hr⟩ := hc hu
  have hle : 2 ^ e ≤ 2 ^ 16 := two_pow_le_half he
  have hlt : dist s.tx.dirty s.tx.next s.cfg.nTx < s.cfg.nTx := dist_lt (by omega)
  have hd := dist_inc_left he (a := s.tx.dirty) (b := s.tx.next) (hne ▸ hdirty) (hne ▸ hnext) (by rw [← hne]; omega)
  have hf : (s.tx.numFree + 1#32).toInt = s.tx.numFree.toInt + 1 := toInt_add_one (by omega) (by omega)
  obtain ⟨m, hm, h⟩ := reclaimOne_tx s
  have hcfg : (Machine.reclaimOne s).cfg = s.cfg := by simp
  have hcount : TxCounted (Machine.reclaimOne s) := by
    refine ⟨?_, ?_, ?_, ?_⟩ <;> rw [h, hcfg]
    · exact hnext
    · exact inc_lt (by omega)
    · exact hm.trans hslots
    · dsimp only
      rw [hf, hne, hd, ← hne]
      omega
  have hroom : RoomSeen (Machine.reclaimOne s) := fun hw => by
    have := hr (by simpa [willSend] using hw)
    rw [h, hcfg]
    dsimp only
    omega
  refine ⟨⟨hcfg ▸ hv, txSound_iff.2 ⟨by simpa using hen, fun _ => ⟨hcount, hroom⟩⟩⟩, by simpa using hu, ?_⟩
  rw [h, hcfg]
  dsimp only
  omega

/-- The walk over `n` slots in flight keeps the count, whatever other agents do between two of them. -/
theorem ConservedWith.reclaimMany {n : Nat} (hs : ConservedWith n s) : Conserved (reclaimMany n s) := by
  induction n generalizing s with
  | zero => exact hs.1
  | succ n ih => exact ih ((conservedWith_agentInvariant n).macPoint hs.reclaimOne)

theorem AgentInvariant.wake {P : State → Prop} (hi : AgentInvariant P) (hs : P s) : P (wake s) := by
  unfold Machine.wake
  split
  · have h1 : P ((Machine.macPoint s).setTx { (Machine.macPoint s).tx with stalled := false }) :=
      hi.congr (ringState_stalled _ _) (hi.macPoint hs)
    exact hi.congr (by simp) (hi.macPoint h1)
  · exact hs

theorem Conserved.reclaim (he : s.flags.enabled = true) (h : reclaim s = .next t) (hs : Conserved s) : Conserved t := by
  unfold Machine.reclaim at h
  split at h <;> cases h
  rename_i hin
  obtain ⟨hen, hc⟩ := txSound_iff.1 hs.2
  obtain ⟨hc, -⟩ := hc (hen he)
  have hfree := hc.free
  simp only [consumerInside, decide_eq_true_eq] at hin
  have hw : ConservedWith (dist s.tx.dirty (hwConsumer s) s.cfg.nTx) s := ⟨hs, hen he, by omega⟩
  exact conserved_agentInvariant.congr (by simp [reclaimTo]) (conserved_agentInvariant.wake hw.reclaimMany)

/-! ### The rings built, cleared and taken down (40_rings.md R145 to R148) -/

theorem Conserved.txClear (hs : Conserved s) : Conserved (txClear s) := by
  obtain ⟨hv, hs⟩ := hs
  obtain ⟨he, -⟩ := txSound_iff.1 hs
  refine ⟨by simpa using hv, txSound_iff.2 ⟨by simpa using he, fun _ => ?_⟩⟩
  exact TxCounted.of_empty (s := s) (by simpa using hv) (by simp [Machine.txClear])

theorem Conserved.ringSetup (he : s.flags.enabled = false) (hr : s.flags.ringsUp = false) (hv : s.cfg.valid = true) :
    Conserved (ringSetup s) := by
  obtain ⟨s1, h1, h⟩ | ⟨t, r, q, s1, s2, h1, ⟨h2, h⟩ | ⟨h2, h⟩⟩ := ringSetup_cases s
  · cases congrArg Prod.snd h1
    exact .of_no_rings (by simpa using hv) (by simpa [h] using he) (by simpa [h] using hr)
  · cases congrArg Prod.snd h1
    cases congrArg Prod.snd h2
    refine ⟨by simpa using hv, txSound_iff.2 ⟨fun _ => by simp [h, setupDone], fun _ => ?_⟩⟩
    refine TxCounted.of_empty (s := { s with tx := { s.tx with ringPhys := t } }) (by simpa using hv) ?_
    simp [h, setupDone, placeRings]
  · cases congrArg Prod.snd h1
    cases congrArg Prod.snd h2
    exact .of_no_rings (by simpa using hv) (by simpa [h, unwind, dropArrays] using he)
      (by simp [h, unwind, dropArrays])

theorem conserved_ringInvariant : RingInvariant Conserved fun _ => True where
  toAgentInvariant := conserved_agentInvariant
  unbounded := trivial
  enqueues := fun hi h hs => by
    obtain ⟨hv, hs⟩ := hs
    obtain ⟨hcfg, -, -, hflags, -, -, -, -, -, -, -, -, hp⟩ := enqueue_frame h
    obtain ⟨he, hc⟩ := txSound_iff.1 hs
    refine ⟨hcfg ▸ hv, txSound_iff.2 ⟨hflags ▸ he, fun hu => ⟨?_, fun hw => ?_⟩⟩⟩
    · exact ((hc (hflags ▸ hu)).1.enqueue hv (.inl rfl) h).1
    · simp [willSend, hp, hi] at hw
  reclaims := fun he h hs => hs.reclaim he h
  drains := fun {s} _ hs => by
    cases h : drainOne s with
    | next t => exact hs.of_frame (drainOne_frame h)
    | fault r => trivial
    | refused r => trivial
  refills := fun hs => hs.of_frame (by simp)
  sets_up := fun he hr hs => .ringSetup he hr hs.1
  tears_down := fun he hs => .of_no_rings (by simpa using hs.1) (by simpa [ringTeardown, dropArrays] using he)
    (by simp [ringTeardown, dropArrays])
  clears_tx := Conserved.txClear
  resets_rx := fun hs => hs.of_frame (by simp)
  disables := fun ⟨hv, _, hc⟩ => ⟨hv, nofun, hc⟩
  enables := fun hr ⟨hv, _, hc⟩ => ⟨hv, fun _ => hr, hc⟩

end Sys2Proof.Machine

open Sys2Proof Sys2Proof.Machine

/-- Settles O54: ring conservation is an invariant of the rings (`conserved_ringInvariant`), and so of every step. -/
theorem stepKeepsRingConservation : Obligations.StepKeepsRingConservation := by
  unfold Obligations.StepKeepsRingConservation
  intro s t hs ht
  have hv : s.cfg.valid = true := (step_cases ht).1
  have h := conserved_ringInvariant.step ⟨hv, hs⟩
  rw [ht] at h
  exact h.2
end

section
/-! SUPPORT. The buffers the core holds (10_state.md R33, R35, R49; 43_buffer_pool.md R229, R230): what a new buffer, a buffer swapped
in and a spare taken do to them. -/

namespace Sys2Proof.Machine

/-! ### The configuration (70_reset_and_hazards.md R286) -/

/-- What R286 says of the receive rings and their buffers, in the form the proofs use. -/
theorem Cfg.rx_of_valid {c : Cfg} (h : c.valid = true) :
    (∃ e ≤ 12, c.nRfd = 2 ^ e) ∧ (∃ e ≤ 16, c.nRrd = 2 ^ e) ∧ 0 < c.rxBufSize := by
  simp only [Cfg.valid, Cfg.ringsValid, Cfg.poolValid, Bool.and_eq_true, decide_eq_true_eq] at h
  obtain ⟨⟨⟨⟨⟨⟨⟨⟨⟨⟨⟨-, hrrd⟩, hrfd⟩, -⟩, -⟩, hrrdMax⟩, hrfdMax⟩, -⟩, -⟩, ⟨⟨⟨⟨⟨hsize, -⟩, -⟩, -⟩, -⟩, -⟩⟩, -⟩, -⟩ := h
  obtain ⟨d, hd⟩ := isPow2_iff.1 hrfd
  obtain ⟨e, he⟩ := isPow2_iff.1 hrrd
  refine ⟨⟨d, ?_, hd⟩, ⟨e, ?_, he⟩, hsize⟩ <;> by_contra hlt
  · have : 2 ^ 13 ≤ 2 ^ d := Nat.pow_le_pow_right (by omega) (by omega)
    omega
  · have : 2 ^ 17 ≤ 2 ^ e := Nat.pow_le_pow_right (by omega) (by omega)
    omega

theorem Cfg.nRfd_pos {c : Cfg} (h : c.valid = true) : 0 < c.nRfd := by
  obtain ⟨⟨e, -, he⟩, -⟩ := Cfg.rx_of_valid h
  rw [he]
  positivity

theorem Cfg.nRrd_pos {c : Cfg} (h : c.valid = true) : 0 < c.nRrd := by
  obtain ⟨-, ⟨e, -, he⟩, -⟩ := Cfg.rx_of_valid h
  rw [he]
  positivity

/-! ### Lists of buffers -/

/-- Buffers each held once, with identities below `n` (43_buffer_pool.md R229). -/
def OwnedList (l : List Buf) (n : Nat) : Prop := (l.map Buf.id).Nodup ∧ ∀ i ∈ l.map Buf.id, i < n

/-- Buffers given up, or held elsewhere, are held once still. -/
theorem OwnedList.subperm {l k : List Buf} {m n : Nat} (h : OwnedList l m) (hl : k.Subperm l) (hn : m ≤ n) : OwnedList k n := by
  obtain ⟨p, hp, hs⟩ := hl
  have hm : (k.map Buf.id).Perm (p.map Buf.id) := (hp.map _).symm
  refine ⟨hm.nodup_iff.2 (h.1.sublist (hs.map _)), fun i hi => ?_⟩
  exact (h.2 i ((hs.map _).subset (hm.subset hi))).trans_le hn

/-- A new buffer, of the next identity. -/
theorem OwnedList.cons {l : List Buf} {b : Buf} {n : Nat} (h : OwnedList l n) (hb : b.id = n) :
    OwnedList (b :: l) (n + 1) := by
  refine ⟨List.nodup_cons.2 ⟨fun hm => ?_, h.1⟩, fun i hi => ?_⟩
  · have := h.2 _ hm
    omega
  · obtain rfl | hi := List.mem_cons.1 hi
    · omega
    · have := h.2 i hi
      omega

/-- A buffer put in a slot of a tracking array: it and no other is new there. -/
theorem tracked_set_subperm (l : List (Option Buf)) (i : Nat) (b : Buf) :
    (tracked (l.set i (some b))).Subperm (b :: tracked l) := by
  induction l generalizing i with
  | nil => exact List.nil_subperm
  | cons a l ih =>
    cases i with
    | zero =>
      cases a with
      | none => exact .refl _
      | some x => exact ((List.sublist_cons_self x (tracked l)).cons_cons b).subperm
    | succ i =>
      cases a with
      | none => exact ih i
      | some x => exact ((List.subperm_cons x).2 (ih i)).trans (List.Perm.swap b x _).subperm

/-- Every entry of a tracking array is a buffer fit to be posted (10_state.md R49; 43_buffer_pool.md R230). -/
def SlotsFit (c : Cfg) (l : List (Option Buf)) : Prop := ∀ e ∈ l, ∃ b, e = some b ∧ FitBuf c b

theorem SlotsFit.set {c : Cfg} {l : List (Option Buf)} {b : Buf} (h : SlotsFit c l) (hb : FitBuf c b) (i : Nat) :
    SlotsFit c (l.set i (some b)) := fun e he =>
  (List.mem_or_eq_of_mem_set he).elim (h e) fun he => ⟨b, he, hb⟩

theorem SlotsFit.append {c : Cfg} {l : List (Option Buf)} {b : Buf} (h : SlotsFit c l) (hb : FitBuf c b) :
    SlotsFit c (l ++ [some b]) := fun e he =>
  (List.mem_append.1 he).elim (h e) fun he => ⟨b, List.mem_singleton.1 he, hb⟩

theorem tracked_append_some (l : List (Option Buf)) (b : Buf) : tracked (l ++ [some b]) = tracked l ++ [b] := by
  simp [tracked]

/-! ### The invariant in parts -/

/-- The pool within its bound, every spare fit, and every buffer held once (10_state.md R35; 43_buffer_pool.md R229, R230). -/
structure Pooled (s : State) : Prop where
  valid : s.cfg.valid = true
  bound : s.pool.spare.length ≤ s.cfg.spareCap
  fit : ∀ b ∈ s.pool.spare, FitBuf s.cfg b
  owned : OwnedList (tracked s.rx.mbuf ++ s.pool.spare) s.env.nextBuf

/-- Rings that stand have their receive cursors inside and a fit buffer posted at every slot (10_state.md R23, R33, R49). -/
structure SlotsPosted (s : State) : Prop where
  next : s.rx.next.toNat < s.cfg.nRrd
  free : s.rx.free.toNat < s.cfg.nRfd
  length : s.rx.mbuf.length = s.cfg.nRfd
  fit : SlotsFit s.cfg s.rx.mbuf

/-- A usable configuration, receive posting, the pool's bound and single ownership in it. -/
structure Stocked (s : State) : Prop where
  pooled : Pooled s
  rings : s.flags.enabled = true → s.flags.ringsUp = true
  posted : s.flags.ringsUp = true → SlotsPosted s

variable {s t : State}

theorem stocked_iff : Stocked s ↔ s.cfg.valid = true ∧ RxSound s ∧ OwnedOnce s := by
  constructor
  · rintro ⟨⟨hv, hb, hf, ho⟩, hr, hp⟩
    exact ⟨hv, ⟨hr, fun hu => let ⟨h1, h2, h3, h4⟩ := hp hu; ⟨h1, h2, h3, h4⟩, hb, hf⟩, ho⟩
  · rintro ⟨hv, ⟨hr, hp, hb, hf⟩, ho⟩
    exact ⟨⟨hv, hb, hf, ho⟩, hr, fun hu => let ⟨h1, h2, h3, h4⟩ := hp hu; ⟨h1, h2, h3, h4⟩⟩

theorem Pooled.of_frame (h : t.cfg = s.cfg ∧ t.rx.mbuf = s.rx.mbuf ∧ t.pool.spare = s.pool.spare ∧
    t.env.nextBuf = s.env.nextBuf) (hs : Pooled s) : Pooled t := by
  obtain ⟨hcfg, hbufs, hspare, hnext⟩ := h
  exact ⟨hcfg ▸ hs.valid, by rw [hspare, hcfg]; exact hs.bound, by rw [hspare, hcfg]; exact hs.fit,
    by rw [hbufs, hspare, hnext]; exact hs.owned⟩

theorem SlotsPosted.of_frame (h : t.cfg = s.cfg ∧ t.rx.next = s.rx.next ∧ t.rx.free = s.rx.free ∧
    t.rx.mbuf = s.rx.mbuf) (hs : SlotsPosted s) : SlotsPosted t := by
  obtain ⟨hcfg, hnext, hfree, hbufs⟩ := h
  exact ⟨by rw [hnext, hcfg]; exact hs.next, by rw [hfree, hcfg]; exact hs.free, by rw [hbufs, hcfg]; exact hs.length,
    by rw [hbufs, hcfg]; exact hs.fit⟩

/-- What leaves the receive side, the pool, the flags and the next identity alone keeps it. -/
theorem Stocked.of_frame (h : t.cfg = s.cfg ∧ t.rx = s.rx ∧ t.pool = s.pool ∧ t.flags = s.flags ∧
    t.env.nextBuf = s.env.nextBuf) (hs : Stocked s) : Stocked t := by
  obtain ⟨hcfg, hrx, hpool, hflags, hnext⟩ := h
  exact ⟨hs.pooled.of_frame ⟨hcfg, by rw [hrx], by rw [hpool], hnext⟩, hflags ▸ hs.rings,
    fun hu => (hs.posted (hflags ▸ hu)).of_frame ⟨hcfg, by rw [hrx], by rw [hrx], by rw [hrx]⟩⟩

theorem Stocked.congr (h : ringState t = ringState s) (hs : Stocked s) : Stocked t := by
  simp only [ringState, RingState.mk.injEq] at h
  obtain ⟨hcfg, -, -, -, -, hrxNext, hrxFree, hbufs, hspare, hen, hup, -, hnext⟩ := h
  exact ⟨hs.pooled.of_frame ⟨hcfg, hbufs, hspare, hnext⟩, by rw [hen, hup]; exact hs.rings,
    fun hu => (hs.posted (hup ▸ hu)).of_frame ⟨hcfg, hrxNext, hrxFree, hbufs⟩⟩

/-- Without rings, and so disabled, no buffer is posted. -/
theorem Stocked.of_no_rings (hp : Pooled t) (he : t.flags.enabled = false) (hr : t.flags.ringsUp = false) : Stocked t :=
  ⟨hp, by simp [he], by simp [hr]⟩

/-! ### New buffers (43_buffer_pool.md R230) -/

theorem newBuf_fit {a : BufAnswer} (h : bufAnswerFits true s.cfg.rxBufSize a s = true) :
    FitBuf s.cfg (newBuf s.cfg.rxBufSize a s) := by
  simp only [bufAnswerFits, freeAmong, answerRegion, Bool.not_true, Bool.false_or, Bool.and_eq_true, beq_iff_eq,
    bne_iff_ne] at h
  obtain ⟨⟨⟨halign, -⟩, -⟩, hextra, hphys⟩ := h
  exact ⟨by simp [newBuf, hextra], halign, hphys⟩

/-- `BufAlloc(RX_BUF_SIZE)` gives none, or a fit buffer of the next identity. -/
theorem rxBufAlloc_stock (s : State) :
    (∃ s1, rxBufAlloc s = (none, s1) ∧ s1.env.nextBuf = s.env.nextBuf) ∨
    ∃ b s1, rxBufAlloc s = (some b, s1) ∧ FitBuf s.cfg b ∧ b.id = s.env.nextBuf ∧ s1.env.nextBuf = s.env.nextBuf + 1 := by
  obtain ⟨e, he, h | ⟨a, hf, h⟩⟩ := bufAlloc_cases true s.cfg.rxBufSize s
  · exact .inl ⟨_, h, by rw [he]; rfl⟩
  · exact .inr ⟨_, _, h, newBuf_fit hf, rfl, by simp only [takeBuf, State.setEnv_env]; rw [he]; rfl⟩

/-- A spare appended: new, fit, and room for it. -/
theorem Pooled.add_spare {b : Buf} (hs : Pooled s) (hcfg : t.cfg = s.cfg) (hbufs : t.rx.mbuf = s.rx.mbuf)
    (hspare : t.pool.spare = s.pool.spare ++ [b]) (hnext : t.env.nextBuf = s.env.nextBuf + 1)
    (hroom : s.pool.spare.length < s.cfg.spareCap) (hfit : FitBuf s.cfg b) (hid : b.id = s.env.nextBuf) : Pooled t := by
  refine ⟨hcfg ▸ hs.valid, ?_, ?_, ?_⟩
  · rw [hspare, hcfg, List.length_append, List.length_singleton]
    omega
  · rw [hspare, hcfg]
    exact fun x hx => (List.mem_append.1 hx).elim (hs.fit x) fun hx => List.mem_singleton.1 hx ▸ hfit
  · rw [hbufs, hspare, hnext, ← List.append_assoc]
    exact (hs.owned.cons hid).subperm (List.perm_append_singleton _ _).subperm le_rfl

/-- Spares are added up to the pool's bound (40_rings.md R145 step 5, 43_buffer_pool.md R232). -/
theorem Pooled.addSpares {n : Nat} (hs : Pooled s) (hn : s.pool.spare.length + n ≤ s.cfg.spareCap) :
    Pooled (addSpares n s) := by
  induction n generalizing s with
  | zero => exact hs
  | succ n ih =>
    unfold Machine.addSpares
    obtain ⟨s1, h, hnext⟩ | ⟨b, s1, h, hfit, hid, hnext⟩ := rxBufAlloc_stock s <;> cases congrArg Prod.snd h <;> rw [h]
    · exact hs.of_frame (by simp [hnext])
    · refine ih ?_ (by simp; omega)
      exact hs.add_spare (b := b) (by simp) (by simp) (by simp) (by simp [hnext]) (by omega) hfit hid

/-! ### acquire (43_buffer_pool.md R220 to R224) -/

/-- Another buffer in the place of the one posted at a slot. -/
theorem SlotsPosted.set {b : Buf} {i : Nat} (hs : SlotsPosted s) (hcfg : t.cfg = s.cfg)
    (hrx : t.rx = { s.rx with mbuf := s.rx.mbuf.set i (some b) }) (hfit : FitBuf s.cfg b) : SlotsPosted t := by
  refine ⟨?_, ?_, ?_, ?_⟩ <;> rw [hrx, hcfg]
  · exact hs.next
  · exact hs.free
  · exact List.length_set.trans hs.length
  · exact hs.fit.set hfit i

/-- The stock with rings that stand, in a configuration `c`: what the receive walk keeps. -/
def StockedRings (c : Cfg) (s : State) : Prop := s.cfg = c ∧ Pooled s ∧ s.flags.ringsUp = true ∧ SlotsPosted s

theorem StockedRings.stocked {c : Cfg} (h : StockedRings c s) : Stocked s :=
  ⟨h.2.1, fun _ => h.2.2.1, fun _ => h.2.2.2⟩

theorem Stocked.stockedRings (hs : Stocked s) (hu : s.flags.ringsUp = true) : StockedRings s.cfg s :=
  ⟨rfl, hs.pooled, hu, hs.posted hu⟩

theorem StockedRings.of_frame {c : Cfg} (h : t.cfg = s.cfg ∧ t.rx = s.rx ∧ t.pool = s.pool ∧ t.flags = s.flags ∧
    t.env.nextBuf = s.env.nextBuf) (hs : StockedRings c s) : StockedRings c t :=
  ⟨h.1.trans hs.1, (hs.stocked.of_frame h).pooled, h.2.2.2.1 ▸ hs.2.2.1,
    (hs.stocked.of_frame h).posted (h.2.2.2.1 ▸ hs.2.2.1)⟩

theorem StockedRings.acquireSpare {c : Cfg} (i : Half) (d : Nat) (b : Buf) (hs : StockedRings c s) :
    StockedRings c (acquireSpare i d b s).2 := by
  obtain ⟨hc, ⟨hv, hb, hf, ho⟩, hu, hp⟩ := hs
  unfold Machine.acquireSpare
  cases hl : s.pool.spare with
  | nil => exact ⟨hc, ⟨hv, hb, hf, ho⟩, hu, hp⟩
  | cons p rest =>
    rw [hl] at hb hf ho
    have hbr : rest.length ≤ s.cfg.spareCap := (Nat.le_succ _).trans hb
    have hfr : ∀ x ∈ rest, FitBuf s.cfg x := fun x hx => hf x (List.mem_cons_of_mem _ hx)
    dsimp only
    cases s.cfg.spareMode with
    | copyIntoSpare =>
      exact ⟨hc, ⟨hv, hbr, hfr, ho.subperm ((List.subperm_append_left _).2 (List.sublist_cons_self p rest).subperm) le_rfl⟩, hu,
        ⟨hp.next, hp.free, hp.length, hp.fit⟩⟩
    | swapInSpare =>
      refine ⟨hc, ⟨hv, hbr, hfr, ho.subperm (k := tracked (s.rx.mbuf.set i.toNat (some p)) ++ rest) ?_ le_rfl⟩, hu,
        hp.set (t := post i p _) rfl rfl (hf p List.mem_cons_self)⟩
      exact ((List.subperm_append_right rest).2 (tracked_set_subperm _ _ p)).trans List.perm_middle.symm.subperm

theorem StockedRings.acquire {c : Cfg} (i : Half) (d : Nat) (b : Buf) (hs : StockedRings c s) :
    StockedRings c (acquire i d b s).2 := by
  obtain ⟨e, he, ⟨a, hfit, h⟩ | ⟨a, -, h⟩ | h⟩ := acquire_cases i d b s <;> rw [h] <;>
    have hnext : e.nextBuf = s.env.nextBuf := by rw [he]
  · obtain ⟨hc, ⟨hv, hb, hf, ho⟩, hu, hp⟩ := hs
    refine ⟨by simpa using hc, ⟨by simpa using hv, by simpa using hb, by simpa using hf, ?_⟩, by simpa using hu,
      hp.set (i := i.toNat) (by simp) (by simp [post]) (newBuf_fit hfit)⟩
    have hn : (post i (newBuf s.cfg.rxBufSize a s) (takeBuf s.cfg.rxBufSize a (s.setEnv e))).env.nextBuf =
        s.env.nextBuf + 1 := congrArg (· + 1) hnext
    have hm : (post i (newBuf s.cfg.rxBufSize a s) (takeBuf s.cfg.rxBufSize a (s.setEnv e))).rx.mbuf =
        s.rx.mbuf.set i.toNat (some (newBuf s.cfg.rxBufSize a s)) := by simp [post]
    rw [hn, hm]
    exact (ho.cons rfl).subperm ((List.subperm_append_right _).2 (tracked_set_subperm _ _ _)) le_rfl
  · obtain ⟨hc, ⟨hv, hb, hf, ho⟩, hu, hp⟩ := hs
    refine ⟨by simpa using hc, ⟨by simpa using hv, by simpa using hb, by simpa using hf, ?_⟩, by simpa using hu,
      hp.of_frame (by simp)⟩
    have hn : (copyInto (newBuf d a s) b d (takeBuf d a (s.setEnv e))).env.nextBuf = s.env.nextBuf + 1 :=
      congrArg (· + 1) hnext
    rw [hn]
    simpa using ho.subperm (List.Subperm.refl _) (Nat.le_succ _)
  · exact (hs.of_frame (t := s.setEnv e) (by simp [hnext])).acquireSpare i d b

/-! ### RX.DRAIN (42_receive.md R190 to R199) -/

/-- Every slot has its buffer, so that no walk meets one without (10_state.md R49). -/
theorem StockedRings.postedBuf_ne_none {c : Cfg} {i : Half} (hs : StockedRings c s) (hi : i.toNat < c.nRfd) :
    postedBuf s i ≠ none := by
  obtain ⟨rfl, -, -, hp⟩ := hs
  have hlt : i.toNat < s.rx.mbuf.length := hp.length.symm ▸ hi
  obtain ⟨b, hb, -⟩ := hp.fit _ (List.getElem_mem hlt)
  simp [postedBuf, List.getD_eq_getElem?_getD, List.getElem?_eq_getElem hlt, hb]

theorem StockedRings.assemble {i : Half} (n len : Nat) (hi : i.toNat < s.cfg.nRfd) (hs : StockedRings s.cfg s) :
    (assemble i n len s).Leaves (StockedRings s.cfg) False :=
  assemble_leaves (R := fun i => i.toNat < s.cfg.nRfd) (fun u i hu => by rw [hu.1]; exact inc_lt (Cfg.nRfd_pos hs.2.1.valid))
    (fun _ _ hu hi hn => hu.postedBuf_ne_none hi hn) (fun _ i d b hu _ => hu.acquire i d b)
    (fun l u hu => hu.of_frame (by simp)) n len hi hs

/-- The faults of a drain but the one that 10_state.md R49 rules out. -/
def SlotFilled (r : Fault) : Prop := r ≠ .noBufferPosted

theorem StockedRings.judge {k : Completion} (hk : k.start.toNat < s.cfg.nRfd) (hs : StockedRings s.cfg s) :
    Answers (StockedRings s.cfg) SlotFilled (judge k s) := by
  unfold Machine.judge
  split
  · exact hs.of_frame (t := raise .rxLength s) (by simp)
  split
  · exact hs.of_frame (t := raise .rxError s) (by simp)
  split
  · have ha := hs.assemble k.count (k.len - s.cfg.crcLen) hk
    split <;> rename_i h <;> rw [h] at ha
    · exact StockedRings.of_frame (s := _) (t := deliver k _ _) (by simp) ha
    · exact StockedRings.of_frame (s := _) (t := raise .rxResource _) (by simp) ha
    · exact ha.elim
  · trivial

theorem recycle_rx (k : Completion) (w : Word) (s : State) : (recycle k w s).rx =
    { s.rx with next := inc s.rx.next 1 s.cfg.nRrd, free := inc k.start k.count s.cfg.nRfd } := by simp [recycle]

theorem StockedRings.recycle {c : Cfg} (k : Completion) (w : Word) (hs : StockedRings c s) : Stocked (recycle k w s) := by
  have hs' := hs.stocked
  obtain ⟨hc, hp, hu, hslots⟩ := hs
  refine ⟨hp.of_frame (by simp [recycle_rx]), fun _ => by simpa using hu, fun _ => ?_⟩
  refine ⟨?_, ?_, ?_, ?_⟩ <;> rw [recycle_rx] <;> simp only [recycle_frame]
  · exact inc_lt (Cfg.nRrd_pos hp.valid)
  · exact inc_lt (Cfg.nRfd_pos hp.valid)
  · exact hslots.length
  · exact hslots.fit

/-- A completion processed: it starts at the slot the walker is at, which is inside the ring. -/
theorem Stocked.drainOne (he : s.flags.enabled = true) (hs : Stocked s) : Answers Stocked SlotFilled (drainOne s) := by
  have hr := hs.stockedRings (hs.rings he)
  unfold Machine.drainOne
  split
  · trivial
  · rename_i hp
    have hstart : (rrdCompletion s).start = s.rx.free := by
      unfold contractProblem at hp
      by_contra hne
      split at hp
      · cases hp
      · cases hp
    exact (hr.judge (hstart ▸ hr.2.2.2.free)).andThen fun u hu => hu.recycle _ _

end Sys2Proof.Machine
end

section
/-! SUPPORT. The rings and the pool built and taken down with the buffers the core holds (40_rings.md R145, R146), and O56. -/

namespace Sys2Proof.Machine

variable {s t : State}

@[simp] theorem dmaAlloc_nextBuf (n : Nat) (s : State) : (dmaAlloc n s).2.env.nextBuf = s.env.nextBuf := by
  obtain ⟨e, he, h⟩ := dmaAlloc_cases n s
  have hn : e.nextBuf = s.env.nextBuf := by rw [he]
  obtain h | ⟨p, -, h⟩ := h <;> rw [h] <;> exact hn

@[simp] theorem dmaFree_nextBuf (a : Addr) (n : Nat) (s : State) : (dmaFree a n s).env.nextBuf = s.env.nextBuf := rfl

@[simp] theorem freeRings_nextBuf (s : State) : (freeRings s).env.nextBuf = s.env.nextBuf := rfl

@[simp] theorem zeroRings_nextBuf (s : State) : (zeroRings s).env.nextBuf = s.env.nextBuf := rfl

@[simp] theorem allocRegions_nextBuf (s : State) : (allocRegions s).2.env.nextBuf = s.env.nextBuf := by
  unfold allocRegions
  rcases h1 : dmaAlloc (txBytes s.cfg) s with ⟨_ | t, s1⟩ <;> cases congrArg Prod.snd h1 <;> dsimp only
  · simp
  rcases h2 : dmaAlloc (rrdBytes s.cfg) (dmaAlloc (txBytes s.cfg) s).2 with ⟨_ | r, s2⟩ <;>
    cases congrArg Prod.snd h2 <;> dsimp only
  · simp
  rcases h3 : dmaAlloc (rfdBytes s.cfg) (dmaAlloc (rrdBytes s.cfg) (dmaAlloc (txBytes s.cfg) s).2).2 with ⟨_ | q, s3⟩ <;>
    cases congrArg Prod.snd h3 <;> simp

theorem pullStep_nextBuf (h : pullStep s = .next t) : t.env.nextBuf = s.env.nextBuf := by
  obtain ⟨-, rfl⟩ | ⟨-, rfl⟩ | ⟨_, -, ⟨-, rfl⟩ | ⟨-, ⟨-, rfl⟩ | ⟨f, rest, -, rfl⟩⟩⟩ | ⟨f, u, -, hu, rfl⟩ := pullStep_cases h
  case inr.inr.inr =>
    obtain ⟨-, -, -, -, -, -, -, -, henv, -⟩ := enqueue_frame hu
    exact congrArg Env.nextBuf henv
  all_goals rfl

theorem stocked_agentInvariant : AgentInvariant Stocked where
  congr := fun h hs => hs.congr h
  begins := fun _ hs => hs.of_frame (by simp [beginPull])
  access := fun h hs => by
    obtain ⟨hcfg, hrx, hpool, hflags, -⟩ := pullStep_frame h
    exact hs.of_frame ⟨hcfg, hrx, hpool, hflags, pullStep_nextBuf h⟩

/-- Buffers are posted one after another; when none fails, there is one for each slot asked (40_rings.md R145 step 4). -/
theorem Pooled.postBuffers (n i : Nat) (hs : Pooled s) (hfit : SlotsFit s.cfg s.rx.mbuf) :
    Pooled (postBuffers n i s).2 ∧ ((postBuffers n i s).1 = true →
      (postBuffers n i s).2.rx.mbuf.length = s.rx.mbuf.length + n ∧ SlotsFit s.cfg (postBuffers n i s).2.rx.mbuf) := by
  induction n generalizing i s with
  | zero => exact ⟨hs, fun _ => ⟨rfl, hfit⟩⟩
  | succ n ih =>
    unfold Machine.postBuffers
    obtain ⟨s1, h, hnext⟩ | ⟨b, s1, h, hb, hid, hnext⟩ := rxBufAlloc_stock s <;> cases congrArg Prod.snd h <;> rw [h]
    · exact ⟨hs.of_frame (by simp [hnext]), nofun⟩
    · have hp : Pooled (((rxBufAlloc s).2.setMem (store64 (rxBufAlloc s).2.mem
          (rfdFieldAddr (rxBufAlloc s).2.cfg (rxBufAlloc s).2.rx.rfdPhys (BitVec.ofNat 16 i)) b.phys)).setRx
          { (rxBufAlloc s).2.rx with mbuf := (rxBufAlloc s).2.rx.mbuf ++ [some b] }) := by
        refine ⟨by simpa using hs.valid, by simpa using hs.bound, by simpa using hs.fit, ?_⟩
        have hperm : (tracked (s.rx.mbuf ++ [some b]) ++ s.pool.spare).Perm (b :: (tracked s.rx.mbuf ++ s.pool.spare)) := by
          rw [tracked_append_some, List.append_assoc]
          exact List.perm_middle
        simpa [hnext] using (hs.owned.cons hid).subperm hperm.subperm le_rfl
      obtain ⟨h1, h2⟩ := ih (i + 1) hp (by simpa using hfit.append hb)
      refine ⟨h1, fun hok => ?_⟩
      obtain ⟨h3, h4⟩ := h2 hok
      exact ⟨h3.trans (by simp; omega), by simpa using h4⟩

/-- The posted buffers or the spares given up. -/
theorem Pooled.emptied (hs : Pooled s) (hcfg : t.cfg = s.cfg) (hbufs : t.rx.mbuf = [] ∨ t.rx.mbuf = s.rx.mbuf)
    (hspare : t.pool.spare = s.pool.spare ∨ t.pool.spare = []) (hnext : t.env.nextBuf = s.env.nextBuf) : Pooled t := by
  have hl : (tracked t.rx.mbuf).Sublist (tracked s.rx.mbuf) := by
    obtain h | h := hbufs <;> rw [h]
    exact List.nil_sublist _
  have hp : t.pool.spare.Sublist s.pool.spare := by
    obtain h | h := hspare <;> rw [h]
    exact List.nil_sublist _
  refine ⟨hcfg ▸ hs.valid, ?_, ?_, ?_⟩
  · exact hcfg ▸ hp.length_le.trans hs.bound
  · exact hcfg ▸ fun b hb => hs.fit b (hp.subset hb)
  · exact hs.owned.subperm (hl.append hp).subperm hnext.ge

/-- The last two steps of a setup: the pool filled anew, the cursors at 0 (40_rings.md R145 steps 4 and 5). -/
theorem Stocked.setupDone (hs : Pooled s) (hlen : s.rx.mbuf.length = s.cfg.nRfd) (hfit : SlotsFit s.cfg s.rx.mbuf) :
    Stocked (setupDone s) := by
  have hfilled : Pooled (populatePool (clearRxCursors s)) := by
    have h0 : Pooled ((clearRxCursors s).setPool { spare := [], refillPending := false }) :=
      hs.emptied rfl (.inr rfl) (.inr rfl) rfl
    exact h0.addSpares (by simp)
  refine ⟨hfilled.of_frame (by simp [Machine.setupDone]), fun _ => by simp [Machine.setupDone], fun _ => ?_⟩
  refine ⟨?_, ?_, ?_, ?_⟩ <;> simp only [Machine.setupDone, populatePool, clearRxCursors]
  · simpa using Cfg.nRrd_pos hs.valid
  · simpa using Cfg.nRfd_pos hs.valid
  · simpa using hlen
  · simpa using hfit

theorem Stocked.ringSetup (he : s.flags.enabled = false) (hr : s.flags.ringsUp = false) (hs : Stocked s) :
    Stocked (ringSetup s) := by
  obtain ⟨s1, h1, h⟩ | ⟨t, r, q, s1, s2, h1, h⟩ := ringSetup_cases s <;> cases congrArg Prod.snd h1
  · rw [h]
    exact .of_no_rings (hs.pooled.of_frame (by simp [setupFail])) (by simpa using he) (by simpa using hr)
  · have hempty : (placeRings t r q (allocRegions s).2).rx.mbuf = [] := by simp [placeRings]
    have hplaced : Pooled (placeRings t r q (allocRegions s).2) := by
      refine ⟨by simpa using hs.pooled.valid, by simpa using hs.pooled.bound, by simpa using hs.pooled.fit, ?_⟩
      rw [hempty]
      simpa [tracked] using hs.pooled.owned.subperm (List.sublist_append_right _ _).subperm le_rfl
    have hpost := hplaced.postBuffers (allocRegions s).2.cfg.nRfd 0 (by rw [hempty]; exact nofun)
    obtain ⟨h2, h⟩ | ⟨h2, h⟩ := h <;> cases congrArg Prod.snd h2 <;> rw [h] <;> rw [h2] at hpost
    · obtain ⟨hp, hok⟩ := hpost
      obtain ⟨hlen, hfit⟩ := hok rfl
      rw [hempty] at hlen
      exact .setupDone hp (by simpa using hlen) (by simpa using hfit)
    · obtain ⟨hp, -⟩ := hpost
      exact .of_no_rings (hp.emptied (by simp) (.inl (by simp [unwind, setupFail, dropArrays])) (.inl (by simp))
        (by simp [unwind, setupFail, dropArrays])) (by simpa [unwind, setupFail, dropArrays] using he)
        (by simp [unwind, setupFail, dropArrays])

theorem Stocked.refill (hs : Stocked s) : Stocked (refill s) := by
  unfold Machine.refill
  split
  · have hp := hs.pooled.addSpares (n := s.cfg.spareCap - s.pool.spare.length) (by have := hs.pooled.bound; omega)
    refine ⟨hp.of_frame (by simp [clearRefill]), by simpa [clearRefill] using hs.rings, fun hu => ?_⟩
    exact (hs.posted (by simpa [clearRefill] using hu)).of_frame (by simp [clearRefill])
  · exact ⟨hs.pooled.of_frame (by simp [clearRefill]), hs.rings, fun hu => (hs.posted hu).of_frame (by simp [clearRefill])⟩

theorem Stocked.reclaim (h : reclaim s = .next t) (hs : Stocked s) : Stocked t := by
  have hi := stocked_agentInvariant
  unfold Machine.reclaim at h
  split at h <;> cases h
  have hw := reclaimMany_keeps (fun u hu => Stocked.of_frame (s := u) (by simp) hu) (fun _ => hi.macPoint)
    (dist s.tx.dirty (hwConsumer s) s.cfg.nTx) hs
  exact hi.congr (by simp [reclaimTo]) (hi.wake hw)

theorem Stocked.rxResetRings (hs : Stocked s) : Stocked (rxResetRings s) := by
  refine ⟨hs.pooled.of_frame (by simp [Machine.rxResetRings, clearRxCursors]), by simpa using hs.rings, fun hu => ?_⟩
  have hp := hs.posted (by simpa using hu)
  have hv := hs.pooled.valid
  refine ⟨?_, ?_, ?_, ?_⟩ <;> simp only [Machine.rxResetRings, clearRxCursors]
  · exact Cfg.nRrd_pos hv
  · exact Cfg.nRfd_pos hv
  · exact hp.length
  · exact hp.fit

theorem stocked_ringInvariant : RingInvariant Stocked SlotFilled where
  toAgentInvariant := stocked_agentInvariant
  unbounded := nofun
  enqueues := fun _ h hs => by
    obtain ⟨hcfg, hrx, hpool, hflags, -, -, -, -, henv, -⟩ := enqueue_frame h
    exact hs.of_frame ⟨hcfg, hrx, hpool, hflags, congrArg Env.nextBuf henv⟩
  reclaims := fun _ h hs => hs.reclaim h
  drains := fun he hs => hs.drainOne he
  refills := Stocked.refill
  sets_up := fun he hr hs => hs.ringSetup he hr
  tears_down := fun he hs => .of_no_rings (hs.pooled.emptied (by simp) (.inl (by simp [ringTeardown, dropArrays, clearRxCursors]))
    (.inr (by simp [ringTeardown])) (by simp [ringTeardown])) (by simpa [ringTeardown, dropArrays] using he)
    (by simp [ringTeardown, dropArrays])
  clears_tx := fun hs => hs.of_frame (by simp)
  resets_rx := Stocked.rxResetRings
  disables := fun ⟨hp, _, hr⟩ => ⟨⟨hp.1, hp.2, hp.3, hp.4⟩, nofun, fun hu => let ⟨h1, h2, h3, h4⟩ := hr hu; ⟨h1, h2, h3, h4⟩⟩
  enables := fun hu ⟨hp, _, hr⟩ => ⟨⟨hp.1, hp.2, hp.3, hp.4⟩, fun _ => hu, fun hu => let ⟨h1, h2, h3, h4⟩ := hr hu; ⟨h1, h2, h3, h4⟩⟩

end Sys2Proof.Machine

open Sys2Proof Sys2Proof.Machine

/-- Settles O56: the stock of buffers is an invariant of the rings (`stocked_ringInvariant`), in which no walk meets a slot
without its buffer. -/
theorem stepKeepsBuffersPostedAndOwnedOnce : Obligations.StepKeepsBuffersPostedAndOwnedOnce := by
  unfold Obligations.StepKeepsBuffersPostedAndOwnedOnce
  intro s hrx ho
  by_cases hv : s.cfg.valid = true
  · have h := stocked_ringInvariant.step (stocked_iff.2 ⟨hv, hrx, ho⟩)
    refine ⟨fun t ht => ?_, fun hf => ?_⟩
    · rw [ht] at h
      exact (stocked_iff.1 h).2
    · rw [hf] at h
      exact h rfl
  · have hstep : step s = .refused .invalidConfig := if_neg hv
    exact ⟨fun t ht => (nomatch hstep.symm.trans ht), fun hf => (nomatch hstep.symm.trans hf)⟩
end

section
/-! SUPPORT. O57 fails: no invariant of its hypotheses keeps a frame out of a slot that is not in flight. -/

namespace Sys2Proof.Machine

/-- The least transmit ring of the pull model, with two receive slots and no spare. -/
def strayCfg : Cfg :=
  { Cfg.default with
    nTx := 16, nRrd := 1, nRfd := 2, maxSegs := 1, txSafetyMargin := 3, pullReserve := 3, txSched := .pull,
    jumboSupport := false, rxBufSize := 16, spareCap := 0, spareLowWater := 0 }

/-- A plain frame of one byte at `a`. -/
def byteFrame (a : Addr) : Frame := { emptyFrame with segs := some [{ addr := a, len := 1#16 }] }

/-- The buffer posted at slot `i`. -/
def strayBuf (i : Nat) : Buf := { id := i, cap := 16, phys := BitVec.ofNat 64 (0x4000 + 64 * i), len := 0, next := none }

/-- The record `S` of an enabled interface with the link up whose transmit ring is empty, and whose tracking array holds a frame at
slot 0 all the same. -/
def strayRecord : State :=
  { State.reset with
    cfg := strayCfg
    tx := { TxSide.powerOn with
      ringPhys := 0x1000#64, numFree := 16#32, mbuf := some (byteFrame 0x5000#64) :: List.replicate 15 none }
    rx := { RxSide.powerOn with rrdPhys := 0x2000#64, rfdPhys := 0x3000#64, mbuf := [some (strayBuf 0), some (strayBuf 1)] }
    flags := { enabled := true, linkUp := true, pollMode := false, wdtArmed := true, ringsUp := true }
    intrMask := imrFull strayCfg
    mem := [(0x1007, 0x80#8), (0x1009, 0x50#8), (0x3001, 0x40#8), (0x3008, 0x40#8), (0x3009, 0x40#8)] }

/-- The machine with that record. The PULLER holds another frame; inside the `RX.DRAIN` that comes it sends it, over slot 0, and then
the STACK stores to the byte of the frame that stood there. -/
def strayFrame : State :=
  { strayRecord with
    mac := { started := true, startedWith := none, conf := macConf strayRecord, advertised := 0#5,
             regs := freshRegs strayCfg (imrFull strayCfg) }
    puller := .holds (byteFrame 0x6000#64)
    env := { Env.empty with
      live := coreRegions strayRecord, nextBuf := 2, during := [[.pull, .hostWrite 0x5000#64 [1#8]]] }
    pending := [.op { word := 0x00000120#32, frame := emptyFrame, link := Link.down }] }

theorem strayFrame_txSound : TxSound strayFrame := by unfold TxSound; decide

theorem strayFrame_modeSound : ModeSound strayFrame := by unfold ModeSound; decide

theorem strayFrame_memorySound : MemorySound strayFrame := by unfold MemorySound; decide

theorem strayBuf_fit : ∀ e ∈ strayFrame.rx.mbuf, ∃ b, e = some b ∧ FitBuf strayFrame.cfg b := by
  have h (i : Nat) (hi : i < 2) : FitBuf strayFrame.cfg (strayBuf i) := by
    unfold FitBuf
    revert i
    decide
  intro e he
  obtain rfl | rfl : e = some (strayBuf 0) ∨ e = some (strayBuf 1) := by simpa [strayFrame, strayRecord] using he
  exacts [⟨_, rfl, h 0 (by decide)⟩, ⟨_, rfl, h 1 (by decide)⟩]

theorem strayFrame_rxSound : RxSound strayFrame :=
  ⟨fun _ => rfl, fun _ => ⟨by decide, by decide, by decide, strayBuf_fit⟩, by decide, fun _ hb => nomatch hb⟩

theorem strayFrame_regionsSound : RegionsSound strayFrame := ⟨by decide, by decide, List.Subperm.refl _⟩

theorem strayFrame_macSound : MacSound strayFrame := by unfold MacSound; decide

theorem strayFrame_lateSound : LateSound strayFrame :=
  ⟨.nil, fun _ _ he => (nomatch he), fun _ he => (nomatch he), fun _ => ⟨fun _ _ h => (nomatch h), fun _ => rfl⟩⟩

theorem strayFrame_descriptorsPosted : DescriptorsPosted strayFrame := by
  intro i hi b hb
  have hi : i < 2 := hi
  interval_cases i <;> cases hb <;> decide

theorem strayFrame_trackingSound : TrackingSound strayFrame := by
  refine ⟨fun _ => ⟨strayFrame_descriptorsPosted, fun i hi f hf => ?_⟩, strayFrame_regionsSound, strayFrame_macSound,
    strayFrame_lateSound⟩
  cases i with
  | zero => cases hf; exact ⟨by decide, _, _, rfl, rfl, by decide⟩
  | succ i =>
    have hn : some f ∈ List.replicate 15 (none : Option Frame) := List.mem_of_getElem? hf
    exact absurd (List.eq_of_mem_replicate hn) (by simp)

/-- What O57 denies of the frame that stood at slot 0: the step stores no foreign header byte, releases nothing, and changes the
frame's byte. -/
def losesStray : Out → Bool
  | .next t =>
    t.foreign == strayFrame.foreign && !(newActs t strayFrame).any isRelease &&
      readByte t.mem 0x5000#64 != readByte strayFrame.mem 0x5000#64
  | .fault _ => false
  | .refused _ => false

theorem step_losesStray : losesStray (step strayFrame) = true := by decide

end Sys2Proof.Machine

open Sys2Proof Sys2Proof.Machine

/-- Refutes O57, in its clause about the bytes of a tracked frame. None of the invariants it assumes says that the tracking array is
empty outside the slots in flight, so that in `strayFrame` the PULLER fills a free slot over the entry of a frame; this is no
release, and what follows in the same step may store to that frame's bytes. -/
theorem not_stepKeepsTheTrackingInvariant : ¬ Obligations.StepKeepsTheTrackingInvariant := by
  unfold Obligations.StepKeepsTheTrackingInvariant
  intro h
  have hl := step_losesStray
  cases hs : step strayFrame with
  | next t =>
    simp only [hs, losesStray, Bool.and_eq_true, beq_iff_eq, Bool.not_eq_true', bne_iff_ne] at hl
    obtain ⟨⟨hf, hr⟩, hb⟩ := hl
    obtain ⟨-, -, -, -, hkeep⟩ := h strayFrame t strayFrame_txSound strayFrame_modeSound strayFrame_rxSound
      strayFrame_memorySound strayFrame_trackingSound hs
    have hkept : NotReleased t strayFrame (byteFrame 0x5000#64) := fun b hm =>
      absurd (List.any_eq_true.2 ⟨_, hm, rfl⟩) (Bool.not_eq_true _ ▸ hr)
    exact hb (hkeep hf rfl (byteFrame 0x5000#64) (by decide) hkept { base := 0x5000#64, size := 1 } (by decide)
      0x5000#64 (by decide) (by decide))
  | fault r => simp [hs, losesStray] at hl
  | refused r => simp [hs, losesStray] at hl
end

section
/-! SUPPORT. O20: the transmit steps of the MAC, one after another up to the doorbell it sees (10_state.md R57). -/

namespace Sys2Proof.Machine

/-- The acts added in front of a record are the new ones. -/
theorem newActs_of_trace {t s : State} {l : List Act} (h : t.trace = l.reverse ++ s.trace) : newActs t s = l := by
  simp [newActs, h]

/-- Transmit steps change of the registers the MAC's index alone. -/
theorem macTx_regs (k : Nat) (s : State) :
    (macTx k s).mac.regs = { s.mac.regs with txCons := (macTx k s).mac.regs.txCons } := by
  induction k generalizing s with
  | zero => rfl
  | succ k ih =>
    unfold macTx
    split
    · rw [ih]; rfl
    · rfl

/-- A transmit step reads what stands at a slot and changes nothing the next one reads. -/
theorem macFetchAct_macTxOne (i : Half) (s : State) : macFetchAct i (macTxOne s) = macFetchAct i s := rfl

theorem macTx_not_ready {k : Nat} {s : State} (h : macTxReady s = false) : macTx k s = s := by
  cases k with
  | zero => rfl
  | succ k => simp [macTx, h]

/-- From a slot that is not in flight the MAC takes no step (R60). -/
theorem macTxReady_of_not_inFlight {s : State} (h : slotInFlight s.mac.regs.txCons s = false) : macTxReady s = false := by
  simp [macTxReady, h]

/-- The slot `j` steps on from the one the MAC fetches next. -/
def macSlot (s : State) (j : Nat) : Half := inc s.mac.regs.txCons j s.mac.conf.nTx

/-- How many descriptors the MAC sees published and has not fetched. -/
def macWindow (s : State) : Nat := Machine.dist s.mac.regs.txCons (bellSeen .tx s) s.mac.conf.nTx

/-- A started MAC whose indices are inside a ring of `2 ^ e` slots, every slot it sees published being in flight. -/
structure MacTxInside (e : Nat) (s : State) : Prop where
  size : s.mac.conf.nTx = 2 ^ e
  started : s.mac.started = true
  cons : s.mac.regs.txCons.toNat < 2 ^ e
  bell : (bellSeen .tx s).toNat < 2 ^ e
  inFlight : ∀ j < macWindow s, slotInFlight (macSlot s j) s = true

variable {e : Nat} {s : State}

theorem MacTxInside.slot_zero (he : e ≤ 16) (h : MacTxInside e s) : macSlot s 0 = s.mac.regs.txCons := by
  rw [macSlot, h.size, inc_zero he h.cons]

theorem MacTxInside.ready_iff (he : e ≤ 16) (h : MacTxInside e s) : macTxReady s = true ↔ 0 < macWindow s := by
  have hd := dist_eq_zero he h.cons h.bell
  have hw : macWindow s = Machine.dist s.mac.regs.txCons (bellSeen .tx s) (2 ^ e) := by rw [macWindow, h.size]
  simp only [macTxReady, h.started, Bool.true_and, Bool.and_eq_true, bne_iff_ne, decide_eq_true_eq, h.size]
  constructor
  · rintro ⟨⟨hne, -⟩, -⟩
    exact hw ▸ Nat.pos_of_ne_zero (mt hd.1 hne)
  · intro hp
    exact ⟨⟨mt hd.2 (hw ▸ hp.ne'), h.cons⟩, h.slot_zero he ▸ h.inFlight 0 hp⟩

theorem macSlot_macTxOne (he : e ≤ 16) (h : MacTxInside e s) (j : Nat) : macSlot (macTxOne s) j = macSlot s (j + 1) := by
  have hs : macSlot (macTxOne s) j = inc (inc s.mac.regs.txCons 1 s.mac.conf.nTx) j s.mac.conf.nTx := rfl
  rw [hs, macSlot, h.size, inc_inc he, Nat.add_comm]

theorem macWindow_macTxOne (he : e ≤ 16) (h : MacTxInside e s) (hp : 0 < macWindow s) :
    macWindow (macTxOne s) = macWindow s - 1 := by
  have hs : macWindow (macTxOne s) =
    Machine.dist (inc s.mac.regs.txCons 1 s.mac.conf.nTx) (bellSeen .tx s) s.mac.conf.nTx := rfl
  rw [macWindow, h.size] at hp
  rw [hs, h.size, dist_inc_left he h.cons h.bell hp, macWindow, h.size]

theorem MacTxInside.macTxOne (he : e ≤ 16) (h : MacTxInside e s) (hp : 0 < macWindow s) : MacTxInside e (macTxOne s) where
  size := h.size
  started := h.started
  cons := by
    change (inc s.mac.regs.txCons 1 s.mac.conf.nTx).toNat < _
    rw [h.size]
    exact inc_lt (by positivity)
  bell := h.bell
  inFlight := fun j hj => by
    rw [macWindow_macTxOne he h hp] at hj
    rw [macSlot_macTxOne he h]
    exact h.inFlight (j + 1) (by omega)

/-- Up to `k` steps fetch the slots from the MAC's index on, as many as are published, and leave the index behind them. -/
theorem macTx_fetches (he : e ≤ 16) (h : MacTxInside e s) (k : Nat) :
    (macTx k s).mac.regs.txCons = macSlot s (min k (macWindow s)) ∧
    (macTx k s).trace = ((List.range (min k (macWindow s))).map fun j => macFetchAct (macSlot s j) s).reverse ++ s.trace := by
  induction k generalizing s with
  | zero => simp [macTx, h.slot_zero he]
  | succ k ih =>
    by_cases hp : 0 < macWindow s
    · have hr : macTx (k + 1) s = macTx k (Machine.macTxOne s) := by rw [macTx, if_pos ((h.ready_iff he).2 hp)]
      obtain ⟨hcons, htrace⟩ := ih (h.macTxOne he hp)
      have hmin : min (k + 1) (macWindow s) = min k (macWindow (Machine.macTxOne s)) + 1 := by
        rw [macWindow_macTxOne he h hp]; omega
      rw [hr, hcons, htrace, hmin, macSlot_macTxOne he h]
      refine ⟨rfl, ?_⟩
      simp only [macSlot_macTxOne he h, macFetchAct_macTxOne, List.range_succ_eq_map, List.map_cons, List.map_map,
        List.reverse_cons, List.append_assoc, h.slot_zero he]
      rfl
    · have hr : macTxReady s = false := by simpa using mt (h.ready_iff he).1 hp
      have hz : macWindow s = 0 := by omega
      simp [macTx_not_ready hr, h.slot_zero he, hz]

/-- Transmit steps with or without their status bit: the bit alone is set besides. -/
theorem macStep_txDone (k : Nat) (irq : Bool) (s : State) :
    macStep (.txDone k irq) s = { macTx k s with
      mac := { (macTx k s).mac with regs := { (macTx k s).mac.regs with
        isr := if irq then s.mac.regs.isr ||| (s.cfg.isr.tx &&& ~~~s.cfg.isr.dis) else s.mac.regs.isr } } } := by
  have hi : (macTx k s).mac.regs.isr = s.mac.regs.isr := by rw [macTx_regs]
  cases irq with
  | false => simp only [macStep, Bool.false_eq_true, if_false, ← hi]
  | true => simp [macStep, setStatus, State.setMac, hi]

end Sys2Proof.Machine

open Sys2Proof Sys2Proof.Machine

/-- Settles O20, by induction on the number of steps (`macTx_fetches`). -/
theorem macTransmitStaysBehindTheDoorbell : Obligations.MacTransmitStaysBehindTheDoorbell := by
  unfold Obligations.MacTransmitStaysBehindTheDoorbell
  intro s e k irq he hsize hstarted hcons hbell
  dsimp only
  rw [macStep_txDone]
  have hp : (macTx k s).mac.regs.tpdPidx = s.mac.regs.tpdPidx := by rw [macTx_regs]
  refine ⟨hp, by simp, by simp, by simp, rfl, fun hf => ?_, fun hf => ?_⟩
  · rw [macTx_not_ready (macTxReady_of_not_inFlight hf)]
    exact ⟨rfl, newActs_of_trace (l := []) rfl⟩
  · have h : MacTxInside e s := ⟨hsize, hstarted, hcons, hbell, by simpa only [macWindow, macSlot, hsize] using hf⟩
    obtain ⟨h1, h2⟩ := macTx_fetches he h k
    simp only [macWindow, macSlot, hsize] at h1 h2
    refine ⟨h1, (newActs_of_trace h2).trans (List.map_congr_left fun j _ => ?_)⟩
    have hdata (a : Addr) (n : Nat) : (if n = 0 then [] else readBytes (macView s) a n) = readBytes (macView s) a n := by
      cases n <;> rfl
    simp only [macFetchAct, fetchedData, hdata]
end

section
/-! SUPPORT. Bytes and words read back from host memory (20_memory.md R70 to R73), and memory as the MAC sees it (R88). -/

namespace Sys2Proof.Machine

variable {m : Memory} {s : State}

/-! ### Runs of bytes -/

/-- A byte outside a run is neither its first byte nor in the rest of it. -/
theorem not_inRange_succ {a x : Addr} {n : Nat} (h : inRange a (n + 1) x = false) :
    x ≠ a ∧ inRange (a + 1#64) n x = false := by
  simp only [inRange, decide_eq_false_iff_not, BitVec.toNat_sub, BitVec.toNat_add, BitVec.toNat_ofNat, ne_eq,
    ← BitVec.toNat_inj] at *
  have := x.isLt
  have := a.isLt
  omega

/-- A byte of a run is its first byte or in the rest of it. -/
theorem inRange_succ {a x : Addr} {n : Nat} (h : inRange a (n + 1) x = true) : x = a ∨ inRange (a + 1#64) n x = true := by
  simp only [inRange, decide_eq_true_eq, BitVec.toNat_sub, BitVec.toNat_add, BitVec.toNat_ofNat, ← BitVec.toNat_inj] at *
  have := x.isLt
  have := a.isLt
  omega

/-- The `i`-th byte of a run is in it. -/
theorem inRange_add (a : Addr) {i n : Nat} (hi : i < n) (hn : n ≤ 2 ^ 64) : inRange a n (a + BitVec.ofNat 64 i) = true := by
  simp only [inRange, decide_eq_true_eq, BitVec.toNat_sub, BitVec.toNat_add, BitVec.toNat_ofNat]
  have := a.isLt
  omega

/-- What is in a region is in a region around it. -/
theorem inRange_of_within {p q : Region} {x : Addr} (h : within p q = true) (hx : inRange p.base p.size x = true) :
    inRange q.base q.size x = true := by
  simp only [within, inRange, decide_eq_true_eq, BitVec.toNat_sub] at *
  have := x.isLt
  have := p.base.isLt
  have := q.base.isLt
  omega

theorem readByte_writeBytes_outside {a x : Addr} {l : List Byte} (hm : Memory.wf m = true)
    (hx : inRange a l.length x = false) : readByte (writeBytes m a l) x = readByte m x := by
  induction l generalizing m a with
  | nil => rfl
  | cons b l ih =>
    obtain ⟨hne, hrest⟩ := not_inRange_succ hx
    rw [writeBytes, ih (writeByte_wf _ _ hm) hrest, readByte_writeByte _ _ _ hm, if_neg hne]

theorem readByte_writeBytes_at {a : Addr} {l : List Byte} {i : Nat} {b : Byte} (hm : Memory.wf m = true)
    (hl : l.length ≤ 2 ^ 64) (hi : l[i]? = some b) : readByte (writeBytes m a l) (a + BitVec.ofNat 64 i) = b := by
  induction l generalizing m a i with
  | nil => cases hi
  | cons c l ih =>
    rw [writeBytes]
    have hlen : l.length + 1 ≤ 2 ^ 64 := hl
    cases i with
    | zero =>
      obtain rfl : c = b := by simpa using hi
      have hout : inRange (a + 1#64) l.length a = false := by
        simp only [inRange, decide_eq_false_iff_not, BitVec.toNat_sub, BitVec.toNat_add, BitVec.toNat_ofNat]
        have := a.isLt
        omega
      rw [BitVec.add_zero, readByte_writeBytes_outside (writeByte_wf _ _ hm) hout,
        readByte_writeByte _ _ _ hm, if_pos rfl]
    | succ i =>
      have := ih (m := writeByte m a c) (a := a + 1#64) (i := i) (writeByte_wf _ _ hm) (by omega) (by simpa using hi)
      rw [BitVec.add_assoc, ← BitVec.ofNat_add] at this
      rw [Nat.add_comm i 1]
      exact this

theorem getElem?_readBytes (m : Memory) (a : Addr) {n i : Nat} (h : i < n) :
    (readBytes m a n)[i]? = some (readByte m (a + BitVec.ofNat 64 i)) := by
  induction n generalizing a i with
  | zero => omega
  | succ n ih =>
    cases i with
    | zero => simp [readBytes]
    | succ i =>
      rw [readBytes, List.getElem?_cons_succ, ih _ (by omega), BitVec.add_assoc, ← BitVec.ofNat_add, Nat.add_comm 1 i]

@[simp] theorem length_readBytes (m : Memory) (a : Addr) (n : Nat) : (readBytes m a n).length = n := by
  induction n generalizing a with
  | zero => rfl
  | succ n ih => exact congrArg (· + 1) (ih _)

/-- What was read from one memory and written to another at the same place reads there as in the first. -/
theorem readByte_writeBytes_readBytes (k : Memory) {a x : Addr} {n : Nat} (hm : Memory.wf m = true)
    (hx : inRange a n x = true) : readByte (writeBytes m a (readBytes k a n)) x = readByte k x := by
  induction n generalizing m a with
  | zero => simp [inRange] at hx
  | succ n ih =>
    rw [readBytes, writeBytes]
    by_cases hr : inRange (a + 1#64) n x = true
    · exact ih (writeByte_wf _ _ hm) hr
    · obtain rfl : x = a := (inRange_succ hx).resolve_right hr
      rw [readByte_writeBytes_outside (writeByte_wf _ _ hm) (by simpa using hr), readByte_writeByte _ _ _ hm, if_pos rfl]

/-! ### Words -/

/-- The two stores of a half, and the four of a word, are stores of bytes in order. -/
def wordBytes (v : Word) : List Byte := [v.extractLsb' 0 8, v.extractLsb' 8 8, v.extractLsb' 16 8, v.extractLsb' 24 8]

theorem store32_eq (m : Memory) (a : Addr) (v : Word) : store32 m a v = writeBytes m a (wordBytes v) := by
  have hbyte (k i : Nat) (hi : i + 8 ≤ 16) : (v.extractLsb' k 16).extractLsb' i 8 = v.extractLsb' (k + i) 8 := by
    ext j hj
    simp [Nat.add_assoc, show i + j < 16 by omega]
  simp [store32, store16, wordBytes, writeBytes, hbyte, BitVec.add_assoc]

theorem readByte_store32_outside {a x : Addr} (v : Word) (hm : Memory.wf m = true) (hx : inRange a 4 x = false) :
    readByte (store32 m a v) x = readByte m x := by
  rw [store32_eq]
  exact readByte_writeBytes_outside hm hx

/-- A word reads alike in memories that agree in its four bytes. -/
theorem load32_congr {k : Memory} {a : Addr} (h : ∀ x, inRange a 4 x = true → readByte m x = readByte k x) :
    load32 m a = load32 k a := by
  have hb (i : Nat) (hi : i < 4) := h (a + BitVec.ofNat 64 i) (inRange_add a hi (by omega))
  have h0 := hb 0 (by omega)
  have h1 := hb 1 (by omega)
  have h2 := hb 2 (by omega)
  have h3 := hb 3 (by omega)
  simp only [load32, load16, BitVec.add_assoc]
  simp only [BitVec.add_zero] at h0
  simp [h0, h1, h2, h3]

theorem load32_store32 (a : Addr) (v : Word) (hm : Memory.wf m = true) : load32 (store32 m a v) a = v := by
  have hb (i : Nat) (b : Byte) (h : (wordBytes v)[i]? = some b) : readByte (store32 m a v) (a + BitVec.ofNat 64 i) = b := by
    rw [store32_eq]
    exact readByte_writeBytes_at hm (by simp [wordBytes]) h
  have h0 := hb 0 _ rfl
  have h1 := hb 1 _ rfl
  have h2 := hb 2 _ rfl
  have h3 := hb 3 _ rfl
  simp only [BitVec.add_zero] at h0
  simp only [load32, load16, BitVec.add_assoc, BitVec.reduceAdd, h0, h1, h2, h3]
  rw [BitVec.extractLsb'_append_extractLsb'_eq_extractLsb' (by rfl), BitVec.extractLsb'_append_extractLsb'_eq_extractLsb' (by rfl),
    BitVec.extractLsb'_append_extractLsb'_eq_extractLsb' (by rfl)]
  exact BitVec.extractLsb'_eq_self

theorem load32_store32_of_apart {a b : Addr} (v : Word) (hm : Memory.wf m = true)
    (h : apart { base := b, size := 4 } { base := a, size := 4 } = true) : load32 (store32 m a v) b = load32 m b :=
  load32_congr fun _ hx => readByte_store32_outside v hm (apart_not_inRange h hx)

/-! ### Memory as the MAC sees it -/

/-- Late stores shown over a memory, as `macView` shows them: what stood before an older one is written last. -/
def overlay (m : Memory) (l : List LateStore) : Memory := l.foldl (fun m e => writeBytes m e.base e.seen) m

theorem macView_eq (s : State) : macView s = overlay s.mem s.late := rfl

theorem overlay_cons (m : Memory) (e : LateStore) (l : List LateStore) :
    overlay m (e :: l) = overlay (writeBytes m e.base e.seen) l := rfl

theorem overlay_wf {l : List LateStore} (hm : Memory.wf m = true) : Memory.wf (overlay m l) = true := by
  induction l generalizing m with
  | nil => exact hm
  | cons e l ih => exact ih (writeBytes_wf _ _ hm)

/-- Where no store is late the MAC sees what stands there. -/
theorem readByte_overlay {l : List LateStore} {x : Addr} (hm : Memory.wf m = true)
    (hx : ∀ e ∈ l, inRange e.base e.seen.length x = false) : readByte (overlay m l) x = readByte m x := by
  induction l generalizing m with
  | nil => rfl
  | cons e l ih =>
    rw [overlay_cons, ih (writeBytes_wf _ _ hm) fun d hd => hx d (List.mem_cons_of_mem _ hd),
      readByte_writeBytes_outside hm (hx e List.mem_cons_self)]

theorem underOldest_of_none {k : Memory} {a : Addr} {l : List LateStore} (h : ∀ e ∈ l, e.base ≠ a) : underOldest k a l = l := by
  induction l with
  | nil => rfl
  | cons e l ih =>
    rw [underOldest, ih fun d hd => h d (List.mem_cons_of_mem _ hd), if_neg (by simp [h e List.mem_cons_self])]

/-- What is put under the oldest late store to a descriptor is what the MAC sees there, when the stores to it are to the whole of
it and no other is to a part of it. -/
theorem readByte_overlay_underOldest {k : Memory} {a x : Addr} {n : Nat} {l : List LateStore} (hm : Memory.wf m = true)
    (hlate : ∃ e ∈ l, e.base = a) (hsize : ∀ e ∈ l, e.base = a → e.seen.length = n)
    (hrest : ∀ e ∈ l, e.base ≠ a → inRange e.base e.seen.length x = false) (hx : inRange a n x = true) :
    readByte (overlay m (underOldest k a l)) x = readByte k x := by
  induction l generalizing m with
  | nil => simp at hlate
  | cons e l ih =>
    have hsize' : ∀ d ∈ l, d.base = a → d.seen.length = n := fun d hd => hsize d (List.mem_cons_of_mem _ hd)
    have hrest' : ∀ d ∈ l, d.base ≠ a → inRange d.base d.seen.length x = false := fun d hd =>
      hrest d (List.mem_cons_of_mem _ hd)
    rw [underOldest, overlay_cons]
    by_cases hold : ∃ d ∈ l, d.base = a
    · exact ih (writeBytes_wf _ _ hm) hold hsize' hrest'
    · have hnone : ∀ d ∈ l, d.base ≠ a := fun d hd hb => hold ⟨d, hd, hb⟩
      have hbase : e.base = a := by
        obtain ⟨d, hd, hb⟩ := hlate
        obtain rfl | hd := List.mem_cons.1 hd
        · exact hb
        · exact absurd hb (hnone d hd)
      have holder : hasOlder e l = false := by
        rw [hasOlder, List.any_eq_false, hbase]
        simpa using hnone
      rw [underOldest_of_none hnone, if_pos (by simp [hbase, holder]),
        readByte_overlay (writeBytes_wf _ _ hm) fun d hd => hrest' d hd (hnone d hd)]
      simp only [hbase, hsize e List.mem_cons_self hbase]
      exact readByte_writeBytes_readBytes k hm hx

/-- Where no two late stores are to one descriptor, every store to a descriptor in the region arrives. -/
theorem dropOldest_of_nodup (r : Region) {l : List LateStore} (h : (l.map LateStore.base).Nodup) :
    dropOldest r l = l.filter fun e => !inRange r.base r.size e.base := by
  induction l with
  | nil => rfl
  | cons e l ih =>
    obtain ⟨hout, h⟩ := List.nodup_cons.1 h
    have holder : hasOlder e l = false := by
      rw [hasOlder, List.any_eq_false]
      intro d hd hb
      exact hout (List.mem_map.2 ⟨d, hd, by simpa using hb⟩)
    rw [dropOldest, List.filter_cons, ih h, holder]
    cases inRange r.base r.size e.base <;> rfl

end Sys2Proof.Machine
end

section
/-! SUPPORT. What the MAC stores as a completion decodes to what was received (30_encoding.md R110 to R114, 42_receive.md R192). -/

namespace Sys2Proof.Machine

/-! ### Bit fields (00_scope.md R11) -/

theorem getLsbD_lowMask {n : Nat} (h : n < 32) (i : Nat) : (lowMask n).getLsbD i = decide (i < n) := by
  have hle : 2 ^ n < 2 ^ 32 := Nat.pow_lt_pow_right (by omega) h
  have hpos : 0 < 2 ^ n := by positivity
  have hm : lowMask n = BitVec.ofNat 32 (2 ^ n - 1) := by
    apply BitVec.eq_of_toNat_eq
    simp only [lowMask, bitWord, BitVec.toNat_sub, BitVec.toNat_shiftLeft, BitVec.toNat_ofNat, Nat.shiftLeft_eq]
    omega
  rw [hm, BitVec.getLsbD_ofNat, Nat.testBit_two_pow_sub_one]
  by_cases hi : i < n <;> simp [hi]
  omega

theorem getLsbD_getField {w : Word} {f : Field} (h : f.width < 32) (i : Nat) :
    (getField w f).getLsbD i = (decide (i < f.width) && w.getLsbD (f.lo + i)) := by
  simp [getField, getLsbD_lowMask h, Bool.and_comm]

theorem getLsbD_putField {v : Word} {f : Field} (h : f.width < 32) (i : Nat) : (putField v f).getLsbD i =
    (decide (i < 32) && decide (f.lo ≤ i) && decide (i < f.lo + f.width) && v.getLsbD (i - f.lo)) := by
  simp only [putField, BitVec.getLsbD_shiftLeft, BitVec.getLsbD_and, getLsbD_lowMask h]
  by_cases hlo : f.lo ≤ i
  · have : i - f.lo < f.width ↔ i < f.lo + f.width := by omega
    simp [hlo, this, Nat.not_lt.2 hlo, Bool.and_comm, Bool.and_left_comm, Bool.and_assoc]
  · simp [hlo, show i < f.lo by omega]

theorem getLsbD_clearField {w : Word} {f : Field} (h : f.width < 32) (i : Nat) : (clearField w f).getLsbD i =
    (w.getLsbD i && !(decide (f.lo ≤ i) && decide (i < f.lo + f.width))) := by
  by_cases hi : i < 32
  · simp only [clearField, BitVec.getLsbD_and, BitVec.getLsbD_not, getLsbD_putField h, getLsbD_lowMask h, hi]
    by_cases hin : f.lo ≤ i ∧ i < f.lo + f.width
    · simp [hin, show i - f.lo < f.width by omega]
    · simp only [not_and_or] at hin
      obtain h | h := hin <;> simp [h]
  · simp [BitVec.getLsbD_of_ge w i (by omega), BitVec.getLsbD_of_ge (clearField w f) i (by omega)]

theorem getLsbD_bitWord {n : Nat} (h : n < 32) (i : Nat) : (bitWord n).getLsbD i = decide (i = n) := by
  by_cases hi : i = n
  · simp [bitWord, hi, h]
  · by_cases hlt : i < n
    · simp [bitWord, hi, hlt]
    · simp [bitWord, hi, hlt, show i - n ≠ 0 by omega]

/-- A number that fits a field is what the field's bits hold of it. -/
theorem and_lowMask {n : Nat} {v : Word} (h : n < 32) (hv : v.toNat < 2 ^ n) : v &&& lowMask n = v := by
  refine BitVec.eq_of_getLsbD_eq fun i hi => ?_
  rw [BitVec.getLsbD_and, getLsbD_lowMask h]
  by_cases hin : i < n
  · simp [hin]
  · have hle : 2 ^ n ≤ 2 ^ i := Nat.pow_le_pow_right (by omega) (by omega)
    simp [hin, BitVec.getLsbD, Nat.testBit_lt_two_pow (hv.trans_le hle)]

/-- Two fields share no bit. -/
def Field.Disjoint (f g : Field) : Prop := f.lo + f.width ≤ g.lo ∨ g.lo + g.width ≤ f.lo

/-- Two fields of a word filled in. -/
def fillFields (w : Word) (f : Field) (a : Word) (g : Field) (b : Word) : Word :=
  clearField (clearField w f) g ||| putField a f ||| putField b g

section
variable {f g : Field} (hwf : f.width < 32) (hwg : g.width < 32)
  (hd : Field.Disjoint f g) (w a b : Word)
include hwf hwg hd

theorem getField_fillFields_first (hf : f.lo + f.width ≤ 32) : getField (fillFields w f a g b) f = a &&& lowMask f.width := by
  refine BitVec.eq_of_getLsbD_eq fun i hi => ?_
  simp only [fillFields, getLsbD_getField hwf, BitVec.getLsbD_or, BitVec.getLsbD_and, getLsbD_clearField hwf,
    getLsbD_clearField hwg, getLsbD_putField hwf, getLsbD_putField hwg, getLsbD_lowMask hwf]
  by_cases hin : i < f.width
  · have hout : ¬(g.lo ≤ f.lo + i ∧ f.lo + i < g.lo + g.width) := by
      unfold Field.Disjoint at hd
      omega
    have h32 : f.lo + i < 32 := by omega
    simp only [not_and_or] at hout
    obtain h | h := hout <;> simp [hin, h, h32]
  · simp [hin]

theorem getField_fillFields_second (hg : g.lo + g.width ≤ 32) : getField (fillFields w f a g b) g = b &&& lowMask g.width := by
  refine BitVec.eq_of_getLsbD_eq fun i hi => ?_
  simp only [fillFields, getLsbD_getField hwg, BitVec.getLsbD_or, BitVec.getLsbD_and, getLsbD_clearField hwf,
    getLsbD_clearField hwg, getLsbD_putField hwf, getLsbD_putField hwg, getLsbD_lowMask hwg]
  by_cases hin : i < g.width
  · have hout : ¬(f.lo ≤ g.lo + i ∧ g.lo + i < f.lo + f.width) := by
      unfold Field.Disjoint at hd
      omega
    have h32 : g.lo + i < 32 := by omega
    simp only [not_and_or] at hout
    obtain h | h := hout <;> simp [hin, h, h32]
  · simp [hin]

end

/-! ### The words of a completion under the default layout -/

variable {c : Cfg} (hl : c.layout = Layout.default)
include hl

theorem errAll_default : errAll c = 0x63F0C000#32 := by simp only [errAll, hl]; rfl

/-- The last word of a completion, UPDATED included. -/
theorem lastWord_default (len n : Nat) (start : Half) (info : RxMeta) :
    let w := (completionWords c len n start info).2.2.2 ||| bitWord c.layout.updated
    getField w c.layout.pktlen = BitVec.ofNat 32 len &&& lowMask 14 ∧ w &&& errAll c = info.err &&& errAll c ∧
      wordBit w c.layout.vltagged = info.vlan.isSome ∧ isUpdated c w = true := by
  have herr : ∀ i < 32, (0x63F0C000#32).getLsbD i = true → 14 ≤ i ∧ i ≠ 16 ∧ i ≠ 31 := by decide
  have hlow : ∀ i < 14, (0x63F0C000#32).getLsbD i = false := by decide
  have hw : (⟨0, 14⟩ : Field).width < 32 := by decide
  have htag (i : Nat) : (if info.vlan.isSome = true then bitWord 16 else 0#32).getLsbD i =
      (decide (i = 16) && info.vlan.isSome) := by
    cases info.vlan <;> simp [getLsbD_bitWord]
  simp only [completionWords, errAll_default hl, hl, Layout.default]
  refine ⟨BitVec.eq_of_getLsbD_eq fun i hi => ?_, BitVec.eq_of_getLsbD_eq fun i hi => ?_, ?_, ?_⟩
  · simp only [getLsbD_getField hw, BitVec.getLsbD_or, BitVec.getLsbD_and, BitVec.getLsbD_not, getLsbD_clearField hw,
      getLsbD_putField hw, htag, getLsbD_bitWord (show 31 < 32 by decide), getLsbD_bitWord (show 16 < 32 by decide),
      getLsbD_lowMask (show 14 < 32 by decide)]
    by_cases hin : i < 14
    · simp [hin, hlow i hin, show i ≠ 16 by omega, show i ≠ 31 by omega]
      omega
    · simp [hin]
  · simp only [BitVec.getLsbD_or, BitVec.getLsbD_and, BitVec.getLsbD_not, getLsbD_clearField hw,
      getLsbD_putField hw, htag, getLsbD_bitWord (show 31 < 32 by decide), getLsbD_bitWord (show 16 < 32 by decide)]
    cases he : (0x63F0C000#32).getLsbD i with
    | false => simp
    | true =>
      obtain ⟨h1, h2, h3⟩ := herr i hi he
      simp [h2, h3, show ¬i < 14 by omega]
  · simp only [wordBit, BitVec.getLsbD_or, BitVec.getLsbD_and, BitVec.getLsbD_not, getLsbD_clearField hw,
      getLsbD_putField hw, htag, getLsbD_bitWord (show 31 < 32 by decide), getLsbD_bitWord (show 16 < 32 by decide)]
    simp
  · simp only [isUpdated, hl, Layout.default, wordBit, BitVec.getLsbD_or, getLsbD_bitWord (show 31 < 32 by decide), decide_true,
      Bool.or_true]


/-- The completion the MAC leaves, decoded, is what it received (10_state.md R58 step 3). -/
theorem decodeCompletion_completionWords {len n e : Nat} {start : Half} (info : RxMeta) (hlen : len < 2 ^ 14) (hn : n < 2 ^ 4)
    (he : e ≤ 12) (hring : c.nRfd = 2 ^ e) (hstart : start.toNat < c.nRfd) :
    let w := completionWords c len n start info
    decodeCompletion c w.1 w.2.2.1 (w.2.2.2 ||| bitWord c.layout.updated) =
      { len := len, count := n, start := start, pid := info.pid, err := info.err &&& errAll c, tagged := info.vlan.isSome,
        vtag := info.vlan.getD (info.ignored2.extractLsb' 0 16) } := by
  obtain ⟨hpkt, herr, htag, -⟩ := lastWord_default hl len n start info
  have hnor := getField_fillFields_first (f := ⟨16, 4⟩) (g := ⟨20, 12⟩) (by decide) (by decide) (.inl (by decide))
    info.ignored0 (BitVec.ofNat 32 n) (start.setWidth 32) (by decide)
  have hsi := getField_fillFields_second (f := ⟨16, 4⟩) (g := ⟨20, 12⟩) (by decide) (by decide) (.inl (by decide))
    info.ignored0 (BitVec.ofNat 32 n) (start.setWidth 32) (by decide)
  have hvtag := getField_fillFields_first (f := ⟨0, 16⟩) (g := ⟨16, 8⟩) (by decide) (by decide) (.inl (by decide))
    info.ignored2 (tagField Layout.default info) (info.pid.setWidth 32) (by decide)
  have hpid := getField_fillFields_second (f := ⟨0, 16⟩) (g := ⟨16, 8⟩) (by decide) (by decide) (.inl (by decide))
    info.ignored2 (tagField Layout.default info) (info.pid.setWidth 32) (by decide)
  have hle : 2 ^ e ≤ 2 ^ 12 := Nat.pow_le_pow_right (by omega) he
  rw [and_lowMask (by decide) (by simp; omega)] at hnor
  rw [and_lowMask (by decide) (by simp; omega)] at hsi
  rw [and_lowMask (by decide) (by simp; omega)] at hpid
  rw [and_lowMask (by decide) (by simp; omega)] at hpkt
  simp only [decodeCompletion, Completion.mk.injEq]
  refine ⟨?_, ?_, ?_, ?_, herr, htag, ?_⟩
  · rw [hpkt, BitVec.toNat_ofNat]
    omega
  · have h : getField (completionWords c len n start info).1 c.layout.nor = BitVec.ofNat 32 n := by
      simp only [completionWords, hl]
      exact hnor
    rw [h, BitVec.toNat_ofNat]
    omega
  · have h : getField (completionWords c len n start info).1 c.layout.si = start.setWidth 32 := by
      simp only [completionWords, hl]
      exact hsi
    rw [h, hring, Nat.and_two_pow_sub_one_eq_mod, BitVec.toNat_setWidth, Nat.mod_eq_of_lt (by omega),
      Nat.mod_eq_of_lt (by omega), BitVec.ofNat_toNat, BitVec.setWidth_eq]
  · have h : getField (completionWords c len n start info).2.2.1 c.layout.pid = info.pid.setWidth 32 := by
      simp only [completionWords, hl]
      exact hpid
    rw [h]
    simp
  · have h : getField (completionWords c len n start info).2.2.1 c.layout.vltag = tagField Layout.default info &&& lowMask 16 := by
      simp only [completionWords, hl]
      exact hvtag
    rw [h]
    cases hv : info.vlan with
    | some t =>
      simp only [tagField, hv, Option.getD_some]
      rw [and_lowMask (by decide) (by simp; omega)]
      simp
    | none =>
      have hfield : getField info.ignored2 ⟨0, 16⟩ &&& lowMask 16 = getField info.ignored2 ⟨0, 16⟩ := by
        rw [getField, BitVec.and_assoc, BitVec.and_self]
      simp only [tagField, hv, Option.getD_none, Layout.default]
      rw [hfield]
      ext i hi
      simp [← BitVec.getLsbD_eq_getElem, getLsbD_getField, hi]

end Sys2Proof.Machine
end

section
/-! SUPPORT. O21: the receive step of the MAC (10_state.md R58): the parts of a frame in the posted buffers, and its completion in
the next completion descriptor, or underneath the core's late zeroing of it (20_memory.md R88). -/

namespace Sys2Proof.Machine

variable {s : State} {m : Memory}

/-! ### The completion descriptor -/

theorem apart_fieldAddr (a : Addr) {i j : Nat} (hi : i + 4 ≤ 16) (hj : j + 4 ≤ 16) (h : i + 4 ≤ j ∨ j + 4 ≤ i) :
    apart { base := fieldAddr a i, size := 4 } { base := fieldAddr a j, size := 4 } = true := by
  simp only [apart, inRange, fieldAddr, Bool.and_eq_true, Bool.not_eq_true', decide_eq_false_iff_not, BitVec.toNat_sub,
    BitVec.toNat_add, BitVec.toNat_ofNat]
  have := a.isLt
  omega

/-- A word of a descriptor is inside it. -/
theorem inRange_of_fieldAddr {a x : Addr} {i : Nat} (hi : i + 4 ≤ 16) (hx : inRange (fieldAddr a i) 4 x = true) :
    inRange a 16 x = true := by
  simp only [inRange, fieldAddr, decide_eq_true_eq, BitVec.toNat_sub, BitVec.toNat_add, BitVec.toNat_ofNat] at *
  have := x.isLt
  have := a.isLt
  omega

/-- What the MAC leaves in the descriptor at `a` for a frame of `len` bytes in `n` buffers from slot `start` on. -/
def Completed (c : Cfg) (a : Addr) (len n : Nat) (start : Half) (info : RxMeta) (m : Memory) : Prop :=
  isUpdated c (load32 m (fieldAddr a c.layout.rrdW3)) = true ∧
  readCompletion c m a =
    { len := len, count := n, start := start, pid := info.pid, err := info.err &&& errAll c, tagged := info.vlan.isSome,
      vtag := info.vlan.getD (info.ignored2.extractLsb' 0 16) }

section
variable {c : Cfg} (hl : c.layout = Layout.default)
include hl

/-- It rests on the sixteen bytes of the descriptor. -/
theorem Completed.congr {a : Addr} {len n : Nat} {start : Half} {info : RxMeta} {k : Memory}
    (h : ∀ x, inRange a 16 x = true → readByte m x = readByte k x) (hk : Completed c a len n start info k) :
    Completed c a len n start info m := by
  have hw (i : Nat) (hi : i + 4 ≤ 16) : load32 m (fieldAddr a i) = load32 k (fieldAddr a i) :=
    load32_congr fun x hx => h x (inRange_of_fieldAddr hi hx)
  have h0 : load32 m (fieldAddr a c.layout.rrdW0) = _ := hw _ (by rw [hl]; decide)
  have h2 : load32 m (fieldAddr a c.layout.rrdW2) = _ := hw _ (by rw [hl]; decide)
  have h3 : load32 m (fieldAddr a c.layout.rrdW3) = _ := hw _ (by rw [hl]; decide)
  unfold Completed readCompletion
  rw [h0, h2, h3]
  exact hk

/-- A completion stored changes no byte outside its descriptor. -/
theorem readByte_writeCompletion_outside {a x : Addr} (len n : Nat) (start : Half) (info : RxMeta) (hm : Memory.wf m = true)
    (hx : inRange a 16 x = false) : readByte (writeCompletion c m a len n start info) x = readByte m x := by
  have hout (i : Nat) (hi : i + 4 ≤ 16) : inRange (fieldAddr a i) 4 x = false := by
    by_contra h
    simp [inRange_of_fieldAddr hi (by simpa using h)] at hx
  simp only [writeCompletion, hl, Layout.default]
  rw [readByte_store32_outside _ (store32_wf _ _ (store32_wf _ _ (store32_wf _ _ (store32_wf _ _ hm)))) (hout 12 (by decide)),
    readByte_store32_outside _ (store32_wf _ _ (store32_wf _ _ (store32_wf _ _ hm))) (hout 12 (by decide)),
    readByte_store32_outside _ (store32_wf _ _ (store32_wf _ _ hm)) (hout 8 (by decide)),
    readByte_store32_outside _ (store32_wf _ _ hm) (hout 4 (by decide)), readByte_store32_outside _ hm (hout 0 (by decide))]

/-- A completion stored stands in its descriptor. -/
theorem completed_writeCompletion {a : Addr} {len n e : Nat} {start : Half} (info : RxMeta) (hm : Memory.wf m = true)
    (hlen : len < 2 ^ 14) (hn : n < 2 ^ 4) (he : e ≤ 12) (hring : c.nRfd = 2 ^ e) (hstart : start.toNat < c.nRfd) :
    Completed c a len n start info (writeCompletion c m a len n start info) := by
  rcases hw : completionWords c len n start info with ⟨w0, w1, w2, w3⟩
  have hdecode := decodeCompletion_completionWords hl info hlen hn he hring hstart
  have hlast := (lastWord_default hl len n start info).2.2.2
  rw [hw] at hdecode hlast
  have hm0 : Memory.wf (store32 m (fieldAddr a 0) w0) = true := store32_wf _ _ hm
  have hm1 := store32_wf (fieldAddr a 4) w1 hm0
  have hm2 := store32_wf (fieldAddr a 8) w2 hm1
  have hm3 := store32_wf (fieldAddr a 12) w3 hm2
  have heq : writeCompletion c m a len n start info =
      store32 (store32 (store32 (store32 (store32 m (fieldAddr a 0) w0) (fieldAddr a 4) w1) (fieldAddr a 8) w2)
        (fieldAddr a 12) w3) (fieldAddr a 12) (w3 ||| bitWord c.layout.updated) := by
    simp only [writeCompletion, hw, hl]
    rfl
  have h3 : load32 (writeCompletion c m a len n start info) (fieldAddr a 12) = w3 ||| bitWord c.layout.updated := by
    rw [heq, load32_store32 _ _ hm3]
  have h2 : load32 (writeCompletion c m a len n start info) (fieldAddr a 8) = w2 := by
    rw [heq, load32_store32_of_apart _ hm3 (apart_fieldAddr a (by decide) (by decide) (by decide)),
      load32_store32_of_apart _ hm2 (apart_fieldAddr a (by decide) (by decide) (by decide)), load32_store32 _ _ hm1]
  have h0 : load32 (writeCompletion c m a len n start info) (fieldAddr a 0) = w0 := by
    rw [heq, load32_store32_of_apart _ hm3 (apart_fieldAddr a (by decide) (by decide) (by decide)),
      load32_store32_of_apart _ hm2 (apart_fieldAddr a (by decide) (by decide) (by decide)),
      load32_store32_of_apart _ hm1 (apart_fieldAddr a (by decide) (by decide) (by decide)),
      load32_store32_of_apart _ hm0 (apart_fieldAddr a (by decide) (by decide) (by decide)), load32_store32 _ _ hm]
  have o0 : c.layout.rrdW0 = 0 := by rw [hl]; rfl
  have o2 : c.layout.rrdW2 = 8 := by rw [hl]; rfl
  have o3 : c.layout.rrdW3 = 12 := by rw [hl]; rfl
  unfold Completed readCompletion
  rw [o0, o2, o3, h0, h2, h3]
  exact ⟨hlast, hdecode⟩

end

/-! ### The parts of a frame (R58 steps 1 and 2) -/

/-- `macFill` from the `j`-th part on. -/
def fillFrom (s : State) (bytes : List Byte) (n j : Nat) (m : Memory) : Memory :=
  macFill s.cfg (macView s) s.mac.conf n (inc s.mac.regs.rfdCons j s.mac.conf.nRfd) (bytes.drop (j * s.mac.conf.bufSize)) m

/-- The bytes of the `j`-th part. -/
def partBytes (s : State) (bytes : List Byte) (j : Nat) : List Byte :=
  (bytes.drop (j * s.mac.conf.bufSize)).take s.mac.conf.bufSize

theorem length_partBytes (s : State) (bytes : List Byte) (j : Nat) :
    (partBytes s bytes j).length = (rxPart s bytes.length j).size := by
  simp [partBytes, rxPart]

theorem fillFrom_succ {e : Nat} (he : e ≤ 16) (hring : s.mac.conf.nRfd = 2 ^ e) (bytes : List Byte) (n j : Nat) (m : Memory) :
    fillFrom s bytes (n + 1) j m = fillFrom s bytes n (j + 1) (writeBytes m (rxTarget s j) (partBytes s bytes j)) := by
  rw [fillFrom, macFill, hring, inc_inc he, List.drop_drop, ← hring, ← Nat.succ_mul]
  rfl

section
variable {e : Nat} (he : e ≤ 16) (hring : s.mac.conf.nRfd = 2 ^ e)
include he hring

/-- A byte outside the parts stays. -/
theorem readByte_fillFrom_outside {bytes : List Byte} {n j : Nat} {x : Addr} (hm : Memory.wf m = true)
    (hx : ∀ i, j ≤ i → i < j + n → inRange (rxTarget s i) (rxPart s bytes.length i).size x = false) :
    readByte (fillFrom s bytes n j m) x = readByte m x := by
  induction n generalizing j m with
  | zero => rfl
  | succ n ih =>
    rw [fillFrom_succ he hring, ih (writeBytes_wf _ _ hm) fun i h1 h2 => hx i (by omega) (by omega)]
    exact readByte_writeBytes_outside hm (by rw [length_partBytes]; exact hx j le_rfl (by omega))

/-- A byte of a part stands in it, when the parts share none. -/
theorem readByte_fillFrom_at {bytes : List Byte} {n j q i : Nat} {b : Byte} (hm : Memory.wf m = true)
    (hapart : ∀ i k, i < k → k < j + n → apart (rxPart s bytes.length i) (rxPart s bytes.length k) = true)
    (hlen : bytes.length ≤ 2 ^ 64) (hj : j ≤ q) (hq : q < j + n) (hi : (partBytes s bytes q)[i]? = some b) :
    readByte (fillFrom s bytes n j m) (rxTarget s q + BitVec.ofNat 64 i) = b := by
  have hle : (partBytes s bytes q).length ≤ 2 ^ 64 := by
    simp only [partBytes, List.length_take, List.length_drop]
    omega
  induction n generalizing j m with
  | zero => omega
  | succ n ih =>
    rw [fillFrom_succ he hring]
    obtain rfl | hlt := Nat.eq_or_lt_of_le hj
    · have hin : inRange (rxTarget s j) (rxPart s bytes.length j).size (rxTarget s j + BitVec.ofNat 64 i) = true := by
        rw [← length_partBytes]
        exact inRange_add _ (List.getElem?_eq_some_iff.1 hi).1 hle
      rw [readByte_fillFrom_outside he hring (writeBytes_wf _ _ hm) fun k h1 h2 =>
        apart_not_inRange (hapart j k (by omega) (by omega)) hin]
      exact readByte_writeBytes_at hm hle hi
    · exact ih (writeBytes_wf _ _ hm) (fun i k h1 h2 => hapart i k h1 (by omega)) hlt (by omega)

end

/-! ### What the step may touch (R60) -/

theorem macRxReady_iff {len : Nat} : macRxReady len s = true ↔
    s.mac.started = true ∧ s.cfg.crcLen ≤ len ∧ len ≤ 16383 ∧ 1 ≤ buffersFor len s.mac.conf.bufSize ∧
    buffersFor len s.mac.conf.bufSize ≤ 15 ∧ buffersFor len s.mac.conf.bufSize ≤ rxWindow s ∧
    isUpdated s.cfg (load32 (macView s) (fieldAddr (macRrdAddr s) s.cfg.layout.rrdW3)) = false ∧
    rxIndicesInside s = true ∧ targetsPosted len s = true := by
  simp [macRxReady, and_assoc]

/-- A buffer of the window is one the core tracks. -/
theorem mem_tracked_of_windowBufs {b : Buf} (h : b ∈ windowBufs s) : b ∈ tracked s.rx.mbuf := by
  simp only [windowBufs, List.mem_filterMap, List.getD_eq_getElem?_getD] at h
  obtain ⟨j, -, h⟩ := h
  cases hb : s.rx.mbuf[(inc s.mac.regs.rfdCons j s.mac.conf.nRfd).toNat]? with
  | none => simp [hb] at h
  | some o =>
    obtain rfl : o = some b := by simpa [hb] using h
    exact List.mem_filterMap.2 ⟨_, List.mem_of_getElem? hb, rfl⟩

/-- The memory of a buffer the core holds is apart from each ring. -/
theorem held_apart_ring (hr : RegionsSound s) (hu : s.flags.ringsUp = true) {b : Buf} {r : Region}
    (hb : b ∈ tracked s.rx.mbuf) (hring : r ∈ ringRegions s) : apart (bufRegion b) r = true := by
  obtain ⟨hlive, -, l, hp, hl⟩ := hr
  have hcore : (coreRegions s).Pairwise fun p q => apart p q = true :=
    (hp.pairwise_iff fun h => by rwa [apart_comm]).1 (hlive.sublist hl)
  refine (List.pairwise_append.1 hcore).2.2 _ (List.mem_map_of_mem (List.mem_append_left _ hb)) _ ?_
  rwa [ringsInUse, if_pos hu]

section
variable {len : Nat} (ht : TrackingSound s) (hready : macRxReady len s = true) (hl : s.cfg.layout = Layout.default)
  (hv : s.cfg.valid = true)
include ht hready

/-- A MAC that may take the step knows the rings. -/
theorem conf_of_ready : s.flags.ringsUp = true ∧ s.mac.conf = macConf s ∧ s.mac.regs.rfdCons.toNat < s.cfg.nRfd ∧
    s.mac.regs.rrdProd.toNat < s.cfg.nRrd := by
  obtain ⟨-, -, hmac, -⟩ := ht
  exact hmac (macRxReady_iff.1 hready).1

/-- The descriptor the MAC completes is one of the completion ring. -/
theorem macRrd_mem : macRrd s ∈ allSlots s := by
  obtain ⟨-, hconf, -, hprod⟩ := conf_of_ready ht hready
  refine List.mem_append_left _ (List.mem_append_right _ (List.mem_map.2 ⟨_, List.mem_range.2 hprod, ?_⟩))
  rw [BitVec.ofNat_toNat, BitVec.setWidth_eq, macRrd, macRrdAddr, hconf]
  rfl

include hl

/-- A late store to the completion descriptor is to the whole of it, and any other is to no byte of it. -/
theorem late_at_macRrd {e : LateStore} (he : e ∈ s.late) :
    (e.base = macRrdAddr s → e.seen.length = 16) ∧
    (e.base ≠ macRrdAddr s → ∀ x, inRange (macRrdAddr s) 16 x = true → inRange e.base e.seen.length x = false) := by
  obtain ⟨hu, -⟩ := conf_of_ready ht hready
  have hmem := macRrd_mem ht hready
  obtain ⟨-, -, -, -, hslots, -⟩ := ht
  have hslot : macRrd s = { base := macRrdAddr s, size := 16 } := by rw [macRrd, hl]; rfl
  have hin : inRange (macRrdAddr s) 16 (macRrdAddr s) = true := by simp [inRange]
  obtain heq | hapart := hslot ▸ hslots hu e he _ hmem
  · obtain ⟨hbase, hsize⟩ := Region.mk.injEq .. ▸ heq
    exact ⟨fun _ => hsize, fun h => absurd hbase h⟩
  · rw [apart_comm] at hapart
    refine ⟨fun h => ?_, fun _ x hx => apart_not_inRange hapart hx⟩
    simp [apart, lateRegion, h, hin] at hapart

include hv

theorem macRrd_in_ring {x : Addr} (hx : inRange (macRrdAddr s) 16 x = true) :
    inRange s.rx.rrdPhys (rrdBytes s.cfg) x = true := by
  obtain ⟨-, hconf, -, hprod⟩ := conf_of_ready ht hready
  obtain ⟨-, ⟨e, he, hring⟩, -⟩ := Cfg.rx_of_valid hv
  have hle : 2 ^ e ≤ 2 ^ 16 := two_pow_le_half he
  have hsize : s.cfg.layout.rrdSize = 16 := by rw [hl]; rfl
  simp only [macRrdAddr, hconf, macConf, rrdSlotAddr, slotAddr, rrdBytes, hsize, inRange, decide_eq_true_eq, BitVec.toNat_sub,
    BitVec.toNat_add, BitVec.toNat_ofNat] at *
  have := x.isLt
  have := s.rx.rrdPhys.isLt
  omega

/-- The parts lie in posted buffers, and so outside the completion descriptor. -/
theorem part_outside_macRrd {j : Nat} {x : Addr} (hj : j < buffersFor len s.mac.conf.bufSize)
    (hx : inRange (rxPart s len j).base (rxPart s len j).size x = true) : inRange (macRrdAddr s) 16 x = false := by
  obtain ⟨-, -, -, -, -, -, -, -, htargets⟩ := macRxReady_iff.1 hready
  obtain ⟨hu, -⟩ := conf_of_ready ht hready
  rw [targetsPosted, List.all_eq_true] at htargets
  obtain ⟨b, hb, hin⟩ := List.any_eq_true.1 (htargets j (List.mem_range.2 hj))
  have hapart := held_apart_ring ht.2.1 hu (mem_tracked_of_windowBufs hb)
    (r := { base := s.rx.rrdPhys, size := rrdBytes s.cfg }) (by simp [ringRegions])
  have hout := apart_not_inRange hapart (inRange_of_within hin hx)
  by_contra h
  simp [macRrd_in_ring ht hready hl hv (by simpa using h)] at hout

end

/-! ### The step -/

/-- Host memory with the frame in the posted buffers. -/
def rxFilled (s : State) (bytes : List Byte) : Memory :=
  fillFrom s bytes (buffersFor bytes.length s.mac.conf.bufSize) 0 s.mem

/-- The completion of a frame stored in `m`. -/
def completedIn (s : State) (bytes : List Byte) (info : RxMeta) (m : Memory) : Memory :=
  writeCompletion s.cfg m (macRrdAddr s) bytes.length (buffersFor bytes.length s.mac.conf.bufSize) s.mac.regs.rfdCons info

@[simp] theorem macRrdAddr_setMem (s : State) (v : Memory) : macRrdAddr (s.setMem v) = macRrdAddr s := rfl

@[simp] theorem isLate_setMem (a : Addr) (s : State) (v : Memory) : isLate a (s.setMem v) = isLate a s := rfl

theorem macView_setMem (s : State) (v : Memory) : macView (s.setMem v) = overlay v s.late := rfl

/-- The step stores the parts, and the completion in memory or underneath the late zeroing of its descriptor. -/
theorem macRxOne_cases {e : Nat} (he : e ≤ 16) (hring : s.mac.conf.nRfd = 2 ^ e) (hcons : s.mac.regs.rfdCons.toNat < 2 ^ e)
    (bytes : List Byte) (info : RxMeta) :
    (isLate (macRrdAddr s) s = false ∧ (macRxOne bytes info s).mem = completedIn s bytes info (rxFilled s bytes) ∧
      (macRxOne bytes info s).late = s.late) ∨
    (isLate (macRrdAddr s) s = true ∧ (macRxOne bytes info s).mem = rxFilled s bytes ∧ (macRxOne bytes info s).late =
      underOldest (completedIn s bytes info (overlay (rxFilled s bytes) s.late)) (macRrdAddr s) s.late) := by
  have hfill : macFill s.cfg (macView s) s.mac.conf (buffersFor bytes.length s.mac.conf.bufSize) s.mac.regs.rfdCons bytes
      s.mem = rxFilled s bytes := by
    rw [rxFilled, fillFrom, hring, inc_zero he hcons, Nat.zero_mul, List.drop_zero]
  cases h : isLate (macRrdAddr s) s <;> simp [macRxOne, hfill, complete, h, completedIn, macView_setMem]

theorem setLate_complete_mem (n k : Nat) (info : RxMeta) (s : State) :
    complete n k info s = (s.setMem (complete n k info s).mem).setLate (complete n k info s).late := by
  have hmem (v : Memory) : s.setMem v = (s.setMem (s.setMem v).mem).setLate (s.setMem v).late := rfl
  have hlate (l : List LateStore) : s.setLate l = (s.setMem (s.setLate l).mem).setLate (s.setLate l).late := rfl
  obtain ⟨-, h⟩ | ⟨-, l, -, h⟩ := complete_cases n k info s <;> rw [h]
  · exact hmem _
  · exact hlate _

/-- Of the rest the step moves the MAC's indices, and sets the receive bit of `ISR` if it does. -/
theorem macStep_rx_eq {bytes : List Byte} (info : RxMeta) (irq : Bool) (hready : macRxReady bytes.length s = true) :
    macStep (.rx bytes info irq) s = { s with
      mem := (macRxOne bytes info s).mem, late := (macRxOne bytes info s).late,
      mac := { s.mac with regs := { s.mac.regs with
        rfdCons := inc s.mac.regs.rfdCons (buffersFor bytes.length s.mac.conf.bufSize) s.mac.conf.nRfd,
        rrdProd := inc s.mac.regs.rrdProd 1 s.mac.conf.nRrd,
        isr := if irq then s.mac.regs.isr ||| (s.cfg.isr.rx &&& ~~~s.cfg.isr.dis) else s.mac.regs.isr } } } := by
  simp only [macStep, hready, if_true, macRxOne]
  rw [setLate_complete_mem]
  cases irq <;> rfl

section
variable {bytes : List Byte} (info : RxMeta) (hv : s.cfg.valid = true) (ht : TrackingSound s)
  (hready : macRxReady bytes.length s = true)

include hv ht hready

/-- The free ring is as long as the MAC was told, and its index is inside. -/
theorem rfd_ring_of_ready :
    ∃ e ≤ 12, s.mac.conf.nRfd = 2 ^ e ∧ s.cfg.nRfd = 2 ^ e ∧ s.mac.regs.rfdCons.toNat < 2 ^ e := by
  obtain ⟨⟨e, he, hring⟩, -⟩ := Cfg.rx_of_valid hv
  obtain ⟨-, hconf, hcons, -⟩ := conf_of_ready ht hready
  exact ⟨e, he, by rw [hconf]; exact hring, hring, hring ▸ hcons⟩

/-- A completion stored, in whatever memory, decodes to what was received. -/
theorem completed_completedIn (hl : s.cfg.layout = Layout.default) {k : Memory} (hk : Memory.wf k = true) :
    Completed s.cfg (macRrdAddr s) bytes.length (buffersFor bytes.length s.mac.conf.bufSize) s.mac.regs.rfdCons info
      (completedIn s bytes info k) := by
  obtain ⟨e, he, -, hring, hcons⟩ := rfd_ring_of_ready hv ht hready
  obtain ⟨-, -, hlen, -, hn, -⟩ := macRxReady_iff.1 hready
  exact completed_writeCompletion hl info hk (by omega) (by omega) he hring (hring ▸ hcons)

omit hv ht hready

variable (hm : Memory.wf s.mem = true)
include hm

theorem rxFilled_wf (bytes : List Byte) : Memory.wf (rxFilled s bytes) = true := macFill_wf _ _ _ _ _ hm

include hv ht hready

theorem readByte_rxFilled_outside {x : Addr} (hx : ∀ j < buffersFor bytes.length s.mac.conf.bufSize,
    inRange (rxPart s bytes.length j).base (rxPart s bytes.length j).size x = false) :
    readByte (rxFilled s bytes) x = readByte s.mem x := by
  obtain ⟨e, he, hring, -⟩ := rfd_ring_of_ready hv ht hready
  exact readByte_fillFrom_outside (he.trans (by decide)) hring hm fun i _ hi => hx i (by omega)

/-- Each byte of the frame stands in its buffer, when the parts share none. -/
theorem readByte_rxFilled_at {i : Nat} {b : Byte}
    (hapart : ((List.range (buffersFor bytes.length s.mac.conf.bufSize)).map (rxPart s bytes.length)).Pairwise
      fun p q => apart p q = true) (hi : bytes[i]? = some b) :
    readByte (rxFilled s bytes) (rxTarget s (i / s.mac.conf.bufSize) + BitVec.ofNat 64 (i % s.mac.conf.bufSize)) = b ∧
      ∃ j < buffersFor bytes.length s.mac.conf.bufSize, inRange (rxPart s bytes.length j).base (rxPart s bytes.length j).size
        (rxTarget s (i / s.mac.conf.bufSize) + BitVec.ofNat 64 (i % s.mac.conf.bufSize)) = true := by
  obtain ⟨e, he, hring, -⟩ := rfd_ring_of_ready hv ht hready
  obtain ⟨-, -, hlen, -⟩ := macRxReady_iff.1 hready
  have hsize : 0 < s.mac.conf.bufSize := by
    rw [(conf_of_ready ht hready).2.1]
    exact (Cfg.rx_of_valid hv).2.2
  have hlt : i < bytes.length := (List.getElem?_eq_some_iff.1 hi).1
  have hmod : i % s.mac.conf.bufSize < s.mac.conf.bufSize := Nat.mod_lt _ hsize
  have hq : i / s.mac.conf.bufSize < buffersFor bytes.length s.mac.conf.bufSize := by
    rw [buffersFor, Nat.lt_div_iff_mul_lt hsize]
    have := Nat.div_mul_le_self i s.mac.conf.bufSize
    omega
  have hpart : (partBytes s bytes (i / s.mac.conf.bufSize))[i % s.mac.conf.bufSize]? = some b := by
    rw [partBytes, List.getElem?_take_of_lt hmod, List.getElem?_drop, Nat.mul_comm, Nat.div_add_mod, hi]
  refine ⟨?_, _, hq, ?_⟩
  · unfold rxFilled
    have hlen64 : bytes.length ≤ 2 ^ 64 := hlen.trans (by decide)
    refine readByte_fillFrom_at (he.trans (by decide)) hring hm (fun j k hjk hk => ?_) hlen64 (Nat.zero_le _)
      (hq.trans_eq (Nat.zero_add _).symm) hpart
    rw [Nat.zero_add] at hk
    have h := List.pairwise_iff_getElem.1 (List.pairwise_map.1 hapart) j k (by rw [List.length_range]; omega)
      (by rwa [List.length_range]) hjk
    rwa [List.getElem_range, List.getElem_range] at h
  · have hin := (List.getElem?_eq_some_iff.1 hpart).1
    rw [length_partBytes] at hin
    refine inRange_add _ hin ?_
    simp only [rxPart]
    omega

variable (hl : s.cfg.layout = Layout.default)
include hl

/-- A completion in memory is what the MAC sees: no late store is to its descriptor. -/
theorem completed_overlay (hlate : isLate (macRrdAddr s) s = false) :
    Completed s.cfg (macRrdAddr s) bytes.length (buffersFor bytes.length s.mac.conf.bufSize) s.mac.regs.rfdCons info
      (overlay (completedIn s bytes info (rxFilled s bytes)) s.late) := by
  have hwf := rxFilled_wf hm bytes
  refine (completed_completedIn info hv ht hready hl hwf).congr hl fun x hx => ?_
  refine readByte_overlay (writeCompletion_wf _ _ _ _ _ _ hwf) fun e he => (late_at_macRrd ht hready hl he).2 ?_ x hx
  rw [isLate, List.any_eq_false] at hlate
  simpa using hlate e he

/-- A completion underneath the late zeroing of its descriptor is what the MAC sees. -/
theorem completed_overlay_underOldest (hlate : isLate (macRrdAddr s) s = true) :
    Completed s.cfg (macRrdAddr s) bytes.length (buffersFor bytes.length s.mac.conf.bufSize) s.mac.regs.rfdCons info
      (overlay (rxFilled s bytes)
        (underOldest (completedIn s bytes info (overlay (rxFilled s bytes) s.late)) (macRrdAddr s) s.late)) := by
  have hwf := rxFilled_wf hm bytes
  refine (completed_completedIn info hv ht hready hl (overlay_wf (l := s.late) hwf)).congr hl fun x hx => ?_
  refine readByte_overlay_underOldest hwf ?_ (fun e he => (late_at_macRrd ht hready hl he).1)
    (fun e he hne => (late_at_macRrd ht hready hl he).2 hne x hx) hx
  simpa [isLate] using hlate

end

/-- With no store late, and R58's conditions met, the MAC takes the step: its free descriptors hold the buffers the core tracks. -/
theorem macRxReady_of_enabled {len : Nat} (hrx : RxSound s) (ht : TrackingSound s) (hlate : s.late = [])
    (h : ReceiveEnabled len s) : macRxReady len s = true := by
  obtain ⟨hstarted, hcrc, hmax, hn1, hn15, hwin, hupd⟩ := h
  obtain ⟨hposted, -, hmac, -⟩ := ht
  obtain ⟨hu, hconf, hcons, hprod⟩ := hmac hstarted
  obtain ⟨hdesc, -⟩ := hposted hu
  obtain ⟨-, -, hslots, hfit⟩ := hrx.2.1 hu
  have hin : rxIndicesInside s = true := by
    rw [rxIndicesInside, hconf]
    simp [macConf, hcons, hprod]
  refine macRxReady_iff.2 ⟨hstarted, hcrc, hmax, hn1, hn15, hwin, by rw [macView_nil hlate]; exact hupd, hin, ?_⟩
  rw [targetsPosted, List.all_eq_true]
  intro j hj
  have hlt : (inc s.mac.regs.rfdCons j s.mac.conf.nRfd).toNat < s.rx.mbuf.length := by
    rw [hslots, hconf]
    exact inc_lt (by simp [macConf]; omega)
  obtain ⟨b, hb, hcap, -⟩ := hfit _ (List.getElem_mem hlt)
  have hb : s.rx.mbuf[(inc s.mac.regs.rfdCons j s.mac.conf.nRfd).toNat]? = some (some b) := by
    rw [List.getElem?_eq_getElem hlt, hb]
  have htarget : rxTarget s j = b.phys := by
    have := hdesc _ (hslots ▸ hlt) b hb
    rw [BitVec.ofNat_toNat, BitVec.setWidth_eq] at this
    rw [rxTarget, macView_nil hlate, ← this, rfdSlot, hconf]
    rfl
  refine List.any_eq_true.2 ⟨b, List.mem_filterMap.2 ⟨j, List.mem_range.2 ?_, ?_⟩, ?_⟩
  · exact (List.mem_range.1 hj).trans_le hwin
  · rw [List.getD_eq_getElem?_getD, hb]
    rfl
  · simp only [within, rxPart, bufRegion, htarget, hconf, macConf, hcap, decide_eq_true_eq]
    simp

end Sys2Proof.Machine

open Sys2Proof Sys2Proof.Machine

/-- Settles O21: the parts go to the posted buffers (`rxFilled`), the completion to memory or underneath the late zeroing of its
descriptor (`macRxOne_cases`). -/
theorem macReceiveCompletesOrLosesTheFrame : Obligations.MacReceiveCompletesOrLosesTheFrame := by
  unfold Obligations.MacReceiveCompletesOrLosesTheFrame
  intro s bytes info irq hv hrx ht t k n parts completed
  refine ⟨fun h => by simp [t, macStep, h], macRxReady_of_enabled hrx ht, fun hready hl hm => ?_,
    fun r => ⟨rfl, dropOldest_of_nodup r⟩, fun j => rfl⟩
  have heq := macStep_rx_eq info irq hready
  have hmem : t.mem = (macRxOne bytes info s).mem := by
    change (macStep _ s).mem = _
    rw [heq]
  have hlate : t.late = (macRxOne bytes info s).late := by
    change (macStep _ s).late = _
    rw [heq]
  have hwf := rxFilled_wf hm bytes
  have hfilled : ∀ a : Addr, (∀ r ∈ parts, inRange r.base r.size a = false) → readByte (rxFilled s bytes) a = readByte s.mem a :=
    fun a ha => readByte_rxFilled_outside hv ht hready hm fun j hj => ha _ (List.mem_map_of_mem (List.mem_range.2 hj))
  have hrec : t = { s with
      mem := t.mem, late := t.late,
      mac := { s.mac with regs := { s.mac.regs with
        rfdCons := inc s.mac.regs.rfdCons n k.nRfd, rrdProd := inc s.mac.regs.rrdProd 1 k.nRrd,
        isr := if irq then s.mac.regs.isr ||| (s.cfg.isr.rx &&& ~~~s.cfg.isr.dis) else s.mac.regs.isr } } } := by
    rw [hmem, hlate]
    exact heq
  have hview : macView t = overlay (macRxOne bytes info s).mem (macRxOne bytes info s).late := by
    rw [macView_eq, hmem, hlate]
  obtain ⟨e, he, hring, -, hcons⟩ := rfd_ring_of_ready hv ht hready
  have hslot : (macRrd s).size = 16 := by rw [macRrd, hl]; rfl
  obtain ⟨hearly, h1, h2⟩ | ⟨hzeroing, h1, h2⟩ := macRxOne_cases (he.trans (by decide)) hring hcons bytes info
  · rw [h1] at hmem hview
    rw [h2] at hlate hview
    have hout : ∀ a : Addr, inRange (macRrdAddr s) 16 a = false → readByte t.mem a = readByte (rxFilled s bytes) a :=
      fun a ha => by
        rw [hmem]
        exact readByte_writeCompletion_outside hl _ _ _ _ hwf ha
    refine ⟨?_, fun _ => ⟨?_, hlate⟩, fun h => absurd (hearly.symm.trans h) Bool.false_ne_true, fun hapart i b hi => ?_,
      fun a ha => ?_, hrec⟩
    · rw [hview]
      exact completed_overlay info hv ht hready hm hl hearly
    · rw [hmem]
      exact completed_completedIn info hv ht hready hl hwf
    · obtain ⟨hb, j, hj, hin⟩ := readByte_rxFilled_at hv ht hready hm hapart hi
      rw [hout _ (part_outside_macRrd ht hready hl hv hj hin)]
      exact hb
    · have hrrd := ha _ List.mem_cons_self
      rw [hslot] at hrrd
      rw [hout a hrrd]
      exact hfilled a fun r hr => ha r (List.mem_cons_of_mem _ hr)
  · rw [h1] at hmem hview
    rw [h2] at hlate hview
    refine ⟨?_, fun h => absurd (h.symm.trans hzeroing) Bool.false_ne_true, fun _ a ha => ?_, fun hapart i b hi => ?_,
      fun a ha => ?_, hrec⟩
    · rw [hview]
      exact completed_overlay_underOldest info hv ht hready hm hl hzeroing
    · rw [hmem]
      exact hfilled a ha
    · rw [hmem]
      exact (readByte_rxFilled_at hv ht hready hm hapart hi).1
    · rw [hmem]
      exact hfilled a fun r hr => ha r (List.mem_cons_of_mem _ hr)
end

section
/-! SUPPORT. Every operation keeps the canonical form of host memory (20_memory.md R70, R71; log entry 5), in the order of the
model's files. An operation that stores nothing is a frame lemma's matter; these are the others, tagged so that `simp` chains
them. -/

namespace Sys2Proof.Machine

variable {s t : State}

/-! ### Buffers given out, and other users of host memory -/

@[simp] theorem takeBuf_wf (n : Nat) (a : BufAnswer) (hm : Memory.wf s.mem = true) : Memory.wf (takeBuf n a s).mem = true := by
  simpa [takeBuf] using writeBytes_wf _ _ hm

@[simp] theorem bufAlloc_wf (forRing : Bool) (n : Nat) (hm : Memory.wf s.mem = true) :
    Memory.wf (bufAlloc forRing n s).2.mem = true := by
  obtain ⟨e, -, h | ⟨a, -, h⟩⟩ := bufAlloc_cases forRing n s <;> simp [h, hm]

@[simp] theorem rxBufAlloc_wf (hm : Memory.wf s.mem = true) : Memory.wf (rxBufAlloc s).2.mem = true := bufAlloc_wf _ _ hm

@[simp] theorem hostWrite_wf (a : Addr) (bytes : List Byte) (hm : Memory.wf s.mem = true) :
    Memory.wf (hostWrite a bytes s).mem = true := by
  unfold hostWrite
  split
  · exact writeBytes_wf a bytes hm
  · exact hm

/-! ### The MAC agent (10_state.md R56 to R60) -/

@[simp] theorem macStep_wf (m : MacStep) (hm : Memory.wf s.mem = true) : Memory.wf (macStep m s).mem = true := by
  cases m with
  | txDone k irq => simp only [macStep]; split <;> simpa using hm
  | rx bytes info irq =>
    have h1 : Memory.wf (macRxOne bytes info s).mem = true := macRxOne_wf bytes info hm
    simp only [macStep]
    split
    · split
      · simpa using h1
      · exact h1
    · exact hm
  | status mask => simpa [macStep] using hm
  | arrive r => simpa [macStep] using hm
  | reach n => simpa [macStep] using hm

/-! ### Enqueue (41_transmit.md R169 to R173) -/

@[simp] theorem fillContext_wf (vt : Half) (cmd total : Word) (i : Half) (hm : Memory.wf s.mem = true) :
    Memory.wf (fillContext vt cmd total i s).mem = true := by
  simpa [fillContext] using writeContext_wf _ _ _ _ _ hm

@[simp] theorem fillOne_wf (f : Frame) (vt : Half) (cmd : Word) (g : Seg) (last : Bool) (i : Half)
    (hm : Memory.wf s.mem = true) : Memory.wf (fillOne f vt cmd g last i s).mem = true := by
  simpa [fillOne] using writeData_wf _ _ _ _ _ _ hm

@[simp] theorem fillData_wf (f : Frame) (vt : Half) (cmd : Word) (l : List Seg) (i : Half) (hm : Memory.wf s.mem = true) :
    Memory.wf (fillData f vt cmd l i s).2.mem = true := by
  induction l generalizing i s with
  | nil => exact hm
  | cons g l ih => exact ih _ (fillOne_wf f vt cmd g _ i hm)

@[simp] theorem fillPublish_wf (f : Frame) (segs : List Seg) (ctx : Option Word) (hm : Memory.wf s.mem = true) :
    Memory.wf (fillPublish f segs ctx s).mem = true := by
  cases ctx <;> simp [fillPublish, fill, hm]

theorem enqueue_wf {m : TsoMode} {room : Bool} {f : Frame} (hm : Memory.wf s.mem = true)
    (h : enqueue m room f s = .next t) : Memory.wf t.mem = true := by
  obtain ⟨-, ⟨-, rfl⟩ | ⟨-, -, rfl⟩ | ⟨segs, -, -, -, ⟨-, -, rfl⟩ | ⟨-, -, m1, ctx, hfix, rfl⟩⟩⟩ := enqueue_cases h
  · simpa using hm
  · simpa using hm
  · simpa using hm
  · exact fillPublish_wf f segs ctx (storeHeader_mem (headerFix_wf hm hfix)).1

/-! ### The PULLER and the interleaving points (41_transmit.md R177, 00_scope.md R17) -/

theorem pullStep_wf (hm : Memory.wf s.mem = true) (h : pullStep s = .next t) : Memory.wf t.mem = true := by
  obtain ⟨-, rfl⟩ | ⟨-, rfl⟩ | ⟨_, -, ⟨-, rfl⟩ | ⟨-, ⟨-, rfl⟩ | ⟨f, rest, -, rfl⟩⟩⟩ | ⟨f, u, -, hu, rfl⟩ := pullStep_cases h
  case inr.inr.inr => simpa using enqueue_wf hm hu
  all_goals simpa using hm

theorem pullTurn_wf (hm : Memory.wf s.mem = true) (h : pullTurn s = .next t) : Memory.wf t.mem = true := by
  obtain rfl | ⟨-, ⟨-, -, rfl⟩ | ⟨-, hs⟩⟩ := pullTurn_cases h
  · exact hm
  · simpa using hm
  · exact pullStep_wf hm hs

@[simp] theorem midStep_wf (m : MidStep) (hm : Memory.wf s.mem = true) : Memory.wf (midStep m s).mem = true := by
  obtain he | ⟨a, he⟩ | he | ⟨f, he⟩ | ⟨a, l, he⟩ | ⟨r, he⟩ := midStep_cases m s
  case inr.inr.inl => exact pullTurn_wf hm he
  all_goals simp [he, hm]

@[simp] theorem macPoint_wf (hm : Memory.wf s.mem = true) : Memory.wf (macPoint s).mem = true :=
  macPoint_keeps (P := MemorySound) (fun _ h => h) (fun m _ => midStep_wf m) hm

@[simp] theorem flushOutbound_wf (hm : Memory.wf s.mem = true) : Memory.wf (flushOutbound s).mem = true :=
  flushLoop_keeps (P := MemorySound) (fun _ => macPoint_wf) (fun _ _ _ h _ => h) _ hm

theorem finishPull_wf (hm : Memory.wf s.mem = true) (h : finishPull s = .next t) : Memory.wf t.mem = true :=
  pullRun_keeps (P := MemorySound) (fun _ => macPoint_wf) (fun _ _ => pullStep_wf) _ hm h

/-! ### Receive (42_receive.md, 43_buffer_pool.md) -/

@[simp] theorem post_wf (i : Half) (b : Buf) (hm : Memory.wf s.mem = true) : Memory.wf (post i b s).mem = true :=
  store64_wf _ _ hm

@[simp] theorem copyInto_wf (c b : Buf) (d : Nat) (hm : Memory.wf s.mem = true) : Memory.wf (copyInto c b d s).mem = true :=
  memCopy_wf _ _ _ hm

@[simp] theorem acquireSpare_wf (i : Half) (d : Nat) (b : Buf) (hm : Memory.wf s.mem = true) :
    Memory.wf (acquireSpare i d b s).2.mem = true := by
  unfold acquireSpare
  split
  · exact hm
  · dsimp only
    split <;> simp [hm]

@[simp] theorem acquire_wf (i : Half) (d : Nat) (b : Buf) (hm : Memory.wf s.mem = true) :
    Memory.wf (acquire i d b s).2.mem = true := by
  obtain ⟨e, -, ⟨a, -, h⟩ | ⟨a, -, h⟩ | h⟩ := acquire_cases i d b s <;> simp [h, hm]

/-- What assembling a frame leaves, delivered or lost. -/
theorem assemble_wf (i : Half) (n len : Nat) (hm : Memory.wf s.mem = true) : (assemble i n len s).Leaves MemorySound True :=
  assemble_leaves (R := fun _ => True) (fun _ _ _ => trivial) (fun _ _ _ _ _ => trivial) (fun _ i d b h _ => acquire_wf i d b h)
    (fun l u h => by simpa [MemorySound] using h) n len trivial hm

@[simp] theorem recycle_wf (k : Completion) (w : Word) (hm : Memory.wf s.mem = true) :
    Memory.wf (recycle k w s).mem = true := by
  simpa [recycle] using store32_wf _ _ hm

theorem drainOne_wf (hm : Memory.wf s.mem = true) (h : drainOne s = .next t) : Memory.wf t.mem = true := by
  have ha := assemble_wf (rrdCompletion s).start (rrdCompletion s).count ((rrdCompletion s).len - s.cfg.crcLen) hm
  obtain ⟨-, s1, rfl, rfl | rfl | ⟨-, ⟨l, s2, he, rfl⟩ | ⟨s2, he, rfl⟩⟩⟩ := drainOne_cases h
  · simp [hm]
  · simp [hm]
  · rw [he] at ha
    exact recycle_wf _ _ (by simpa using show Memory.wf s2.mem = true from ha)
  · rw [he] at ha
    exact recycle_wf _ _ (by simpa using show Memory.wf s2.mem = true from ha)

theorem drain_wf {budget : Option Nat} (hm : Memory.wf s.mem = true) (h : drain budget s = .next t) :
    Memory.wf t.mem = true := by
  unfold drain at h
  split at h
  · obtain ⟨u, hu, ht⟩ := andThen_eq_next.1 h
    have hmu : Memory.wf u.mem = true :=
      drainLoop_keeps (P := MemorySound) (fun _ => macPoint_wf) (fun _ _ => drainOne_wf) _ (s := s.setResult (.count 0)) hm hu
    unfold drainEnd at ht
    split at ht <;> cases ht
    simpa using hmu
  · cases h

theorem rxService_wf (hm : Memory.wf s.mem = true) (h : rxService s = .next t) : Memory.wf t.mem = true := by
  obtain ⟨u, hu, ht⟩ := andThen_eq_next.1 h
  cases ht
  split <;> exact drain_wf (t := u) hm hu

@[simp] theorem addSpares_wf (n : Nat) (hm : Memory.wf s.mem = true) : Memory.wf (addSpares n s).mem = true := by
  induction n generalizing s with
  | zero => exact hm
  | succ n ih =>
    have h1 := rxBufAlloc_wf hm
    unfold addSpares
    split <;> rename_i h <;> rw [h] at h1
    · exact h1
    · exact ih h1

@[simp] theorem refill_wf (hm : Memory.wf s.mem = true) : Memory.wf (refill s).mem = true := by
  unfold refill
  split <;> simp [hm]

/-! ### Reclaim (41_transmit.md R180 to R182) -/

theorem reclaim_wf (hm : Memory.wf s.mem = true) (h : reclaim s = .next t) : Memory.wf t.mem = true := by
  have hwake {u : State} (hu : Memory.wf u.mem = true) : Memory.wf (wake u).mem = true := by
    unfold wake
    split <;> simp [hu]
  unfold reclaim at h
  split at h <;> cases h
  exact hwake (reclaimMany_keeps (P := MemorySound) (fun _ hu => by simpa [MemorySound] using hu) (fun _ => macPoint_wf) _ hm)

theorem reclaimIfEnabled_wf (hm : Memory.wf s.mem = true) (h : reclaimIfEnabled s = .next t) : Memory.wf t.mem = true := by
  unfold reclaimIfEnabled at h
  split at h
  · exact reclaim_wf hm h
  · cases h
    exact hm

/-! ### Rings (40_rings.md R145 to R148) -/

@[simp] theorem zeroRings_wf (hm : Memory.wf s.mem = true) : Memory.wf (zeroRings s).mem = true :=
  zeroRange_wf _ _ (zeroRange_wf _ _ (zeroRange_wf _ _ hm))

@[simp] theorem placeRings_wf (t r q : Addr) (hm : Memory.wf s.mem = true) : Memory.wf (placeRings t r q s).mem = true := by
  simp [placeRings, hm]

@[simp] theorem postBuffers_wf (n i : Nat) (hm : Memory.wf s.mem = true) : Memory.wf (postBuffers n i s).2.mem = true := by
  induction n generalizing i s with
  | zero => exact hm
  | succ n ih =>
    have h1 := rxBufAlloc_wf hm
    unfold postBuffers
    split <;> rename_i h <;> rw [h] at h1
    · exact h1
    · exact ih _ (store64_wf _ _ h1)

@[simp] theorem setupDone_wf (hm : Memory.wf s.mem = true) : Memory.wf (setupDone s).mem = true := by
  simp [setupDone, populatePool, hm]

@[simp] theorem ringSetup_wf (hm : Memory.wf s.mem = true) : Memory.wf (ringSetup s).mem = true := by
  have hposted (t r q : Addr) (n : Nat) : Memory.wf (postBuffers n 0 (placeRings t r q (allocRegions s).2)).2.mem = true :=
    postBuffers_wf _ _ (placeRings_wf t r q (by simpa using hm))
  obtain ⟨s1, h1, h⟩ | ⟨t, r, q, s1, s2, h1, ⟨h2, h⟩ | ⟨h2, h⟩⟩ := ringSetup_cases s <;> cases congrArg Prod.snd h1
  · simp [h, hm]
  · cases congrArg Prod.snd h2
    exact h ▸ setupDone_wf (hposted t r q _)
  · cases congrArg Prod.snd h2
    simpa [h] using hposted t r q _

@[simp] theorem txClear_wf (hm : Memory.wf s.mem = true) : Memory.wf (txClear s).mem = true := by
  simpa [txClear] using zeroRange_wf _ _ hm

@[simp] theorem rxResetRings_wf (hm : Memory.wf s.mem = true) : Memory.wf (rxResetRings s).mem = true :=
  zeroRange_wf _ _ hm

@[simp] theorem ringTeardown_wf (hm : Memory.wf s.mem = true) : Memory.wf (ringTeardown s).mem = true := by
  simp [ringTeardown, hm]

/-! ### Control (60_exceptions.md R244 to R265) -/

@[simp] theorem devDisable_wf (hm : Memory.wf s.mem = true) : Memory.wf (devDisable s).mem = true := by
  have hstop : Memory.wf (flushOutbound (macPoint (clearModeFlags (disableInterrupts (wdtCancel s))))).mem = true :=
    flushOutbound_wf (macPoint_wf (by simpa using hm))
  unfold devDisable
  split
  · have hreset := macPoint_wf (s := resetForDisable _) (by simpa using hstop)
    simpa [disableSteps] using ringTeardown_wf hreset
  · exact hm

@[simp] theorem abortAdmin_wf (hm : Memory.wf s.mem = true) : Memory.wf (abortAdmin s).mem = true := by
  simp [abortAdmin, hm]

@[simp] theorem enableMac_wf (hm : Memory.wf s.mem = true) : Memory.wf (enableMac s).mem = true := by
  unfold enableMac
  split <;> rename_i h <;> cases congrArg Prod.snd h
  · simpa using hm
  · simp [enableAbort, hm]

@[simp] theorem devEnable_wf (hm : Memory.wf s.mem = true) : Memory.wf (devEnable s).mem = true := by
  unfold devEnable
  split
  · exact hm
  · dsimp only
    split <;> simp [hm]

@[simp] theorem devReset_wf (hm : Memory.wf s.mem = true) : Memory.wf (devReset s).mem = true := by
  have hrestart : Memory.wf (devRestart s).mem = true := devEnable_wf (macPoint_wf (devDisable_wf hm))
  unfold devReset
  dsimp only
  split <;> exact hrestart

@[simp] theorem linkUp_wf (p : Link) (hm : Memory.wf s.mem = true) : Memory.wf (linkUp p s).mem = true := by
  unfold linkUp
  split <;> rename_i h <;> cases congrArg Prod.snd h
  · exact abortAdmin_wf (by simpa using hm)
  · simp [hm]

@[simp] theorem linkDown_wf (hm : Memory.wf s.mem = true) : Memory.wf (linkDown s).mem = true := by
  have hstop : Memory.wf (linkDownStop s).mem = true := by
    simpa [linkDownStop] using flushOutbound_wf (macPoint_wf (s := s.setFlags { s.flags with linkUp := false }) hm)
  have hclear {u : State} (hu : Memory.wf u.mem = true) : Memory.wf (linkDownClear u).mem = true := by
    simpa [linkDownClear] using rxResetRings_wf (txClear_wf (macPoint_wf hu))
  unfold linkDown
  split <;> rename_i h <;> cases congrArg Prod.snd h
  · exact abortAdmin_wf (by simpa using hstop)
  · have hcleared := hclear (u := (hwCall .macReset (linkDownStop s)).2) (by simpa using hstop)
    dsimp only
    split <;> rename_i h2 <;> cases congrArg Prod.snd h2
    · exact abortAdmin_wf (by simpa using hcleared)
    · simpa using hcleared

theorem linkEvalOn_wf {r : Option Link} (hm : Memory.wf s.mem = true) (h : linkEvalOn r s = .next t) :
    Memory.wf t.mem = true := by
  cases r with
  | none =>
    cases h
    split
    · exact linkDown_wf hm
    · exact hm
  | some p =>
    have hdown : Memory.wf (if s.flags.linkUp && p != s.link then macPoint (linkDown s) else s).mem = true := by
      split
      · exact macPoint_wf (linkDown_wf hm)
      · exact hm
    simp only [linkEvalOn] at h
    split at h <;> cases h
    generalize (if s.flags.linkUp && p != s.link then macPoint (linkDown s) else s) = u at hdown ⊢
    split
    · exact linkUp_wf p hdown
    · exact hdown

theorem linkEval_wf (hm : Memory.wf s.mem = true) (h : linkEval s = .next t) : Memory.wf t.mem = true :=
  linkEvalOn_wf (s := (hwReadLink s).2) (by simpa using hm) h

@[simp] theorem mediumSelect_wf (m : BitVec 5) (hm : Memory.wf s.mem = true) : Memory.wf (mediumSelect m s).mem = true := by
  simp only [mediumSelect]
  split
  · split
    · simp only [reselect]
      split
      · split <;> simp [hm]
      · simp [hm]
    · exact hm
  · simpa [refuseMedium] using hm

@[simp] theorem wdtTick_wf (hm : Memory.wf s.mem = true) : Memory.wf (wdtTick s).mem = true := by
  simp only [wdtTick, stalledTick]
  split
  · split
    · split <;> simp [hm]
    · exact hm
  · exact hm

/-! ### Interrupts and polling (60_exceptions.md R248 to R255) -/

@[simp] theorem dispatchEntry_wf (hm : Memory.wf s.mem = true) : Memory.wf (dispatchEntry s).mem = true := by
  simp [dispatchEntry, hm]

theorem serve_wf {status : Word} (hm : Memory.wf s.mem = true) (h : serve status s = .next t) : Memory.wf t.mem = true := by
  obtain ⟨u, hu, h⟩ := andThen_eq_next.1 h
  obtain ⟨v, hv, ht⟩ := andThen_eq_next.1 h
  have hlog : Memory.wf (logAlert status s).mem = true := by
    unfold logAlert
    split <;> simpa using hm
  have hengines : Memory.wf u.mem = true := by
    unfold serveEngines at hu
    split at hu
    · cases hu
      exact hlog
    · obtain ⟨w, hw, hu⟩ := andThen_eq_next.1 hu
      have htx : Memory.wf w.mem = true := by
        unfold serveTx at hw
        split at hw
        · exact reclaimIfEnabled_wf (macPoint_wf hlog) hw
        · cases hw
          exact hlog
      unfold serveRx at hu
      split at hu
      · exact rxService_wf htx hu
      · cases hu
        exact htx
  have hlink : Memory.wf v.mem = true := by
    unfold serveLink at hv
    split at hv
    · exact linkEval_wf (macPoint_wf hengines) hv
    · cases hv
      exact hengines
  cases ht
  simpa using hlink

theorem dispatch_wf (hm : Memory.wf s.mem = true) (h : dispatch s = .next t) : Memory.wf t.mem = true := by
  simp only [dispatch] at h
  split at h
  · cases h
    simp [fatalReset, hm]
  · exact serve_wf (dispatchEntry_wf hm) h

theorem pollService_wf {budget : Option Nat} (hm : Memory.wf s.mem = true) (h : pollService budget s = .next t) :
    Memory.wf t.mem = true := by
  unfold pollService at h
  split at h
  · obtain ⟨u, hu, ht⟩ := andThen_eq_next.1 h
    exact drain_wf (reclaim_wf hm hu) ht
  · cases h
    exact hm

/-! ### One operation and one step -/

/-- An enqueue requested on its own: the rest of a `TX.PULL` in progress, then the frame (41_transmit.md R174 to R176). -/
theorem txq_wf {m : TsoMode} (hm : Memory.wf s.mem = true)
    (h : (andThen (finishPull s) fun u => enqueue m true u.frameArg u) = .next t) : Memory.wf t.mem = true := by
  obtain ⟨u, hu, ht⟩ := andThen_eq_next.1 h
  exact enqueue_wf (finishPull_wf hm hu) ht

theorem execTxPull_wf (hm : Memory.wf s.mem = true) (h : execTxPull s = .next t) : Memory.wf t.mem = true := by
  obtain ⟨u, hu, h⟩ := andThen_eq_next.1 h
  obtain ⟨v, hv, ht⟩ := andThen_eq_next.1 h
  cases ht
  exact finishPull_wf (s := beginPull u) (t := v) (finishPull_wf (t := u) hm hu) hv

theorem exec_wf {i : Instr} (hm : Memory.wf s.mem = true) (h : exec i s = .next t) : Memory.wf t.mem = true := by
  cases i with
  | ringSetup =>
    change execRingSetup s = _ at h
    cases h
    split
    · exact hm
    · exact ringSetup_wf hm
  | ringTeardown =>
    change execRingTeardown s = _ at h
    unfold execRingTeardown at h
    split at h
    · cases h; exact hm
    · split at h <;> cases h
      simpa using ringTeardown_wf hm
  | txClear =>
    change execTxClear s = _ at h
    unfold execTxClear at h
    split at h
    · cases h; exact hm
    · split at h <;> cases h
      simpa using txClear_wf hm
  | rxReset =>
    change execRxReset s = _ at h
    unfold execRxReset at h
    split at h
    · cases h; exact hm
    · split at h <;> cases h
      simp [hm]
  | txqPlain => exact txq_wf hm h
  | txqTso4 => exact txq_wf hm h
  | txqTso6 => exact txq_wf hm h
  | txPull => exact execTxPull_wf hm h
  | txReclaim => exact reclaimIfEnabled_wf hm h
  | rxDrain b =>
    change drainIfEnabled (budgetOf b) s = _ at h
    unfold drainIfEnabled at h
    split at h
    · exact drain_wf hm h
    · cases h; exact hm
  | poolRefill => cases h; exact refill_wf hm
  | irqDispatch =>
    change execIrqDispatch s = _ at h
    unfold execIrqDispatch at h
    split at h
    · exact dispatch_wf hm h
    · cases h; exact hm
  | pollService b => exact pollService_wf hm h
  | pollMode on =>
    cases h
    unfold setPollMode
    split <;> exact hm
  | wdtTick => cases h; exact wdtTick_wf hm
  | linkUp =>
    change execLinkUp s = _ at h
    unfold execLinkUp at h
    split at h
    · cases h; exact hm
    · split at h <;> cases h
      exact linkUp_wf _ hm
  | linkDown =>
    cases h
    split
    · exact linkDown_wf hm
    · exact hm
  | devReset =>
    cases h
    split
    · exact devReset_wf hm
    · exact hm
  | devEnable => cases h; exact devEnable_wf hm
  | devDisable => cases h; exact devDisable_wf hm
  | mediumSelect m => cases h; exact mediumSelect_wf m hm

theorem runEvent_wf {e : Event} (hm : Memory.wf s.mem = true) (h : runEvent e s = .next t) : Memory.wf t.mem = true := by
  cases e with
  | op r =>
    obtain ⟨i, -, hi⟩ | ⟨e, -, rfl⟩ := runRequest_cases h
    · exact exec_wf (s := s.setArgs r.frame r.link) hm hi
    · cases e <;> simpa [refuseWord, refuseMedium, refuse] using hm
  | mac m => cases h; exact macStep_wf m hm
  | pull => exact pullTurn_wf hm h
  | hostWrite a l => cases h; exact hostWrite_wf a l hm
  | bufReturn r => cases h; simpa using hm
  | _ => cases h; exact hm

theorem step_wf (hm : Memory.wf s.mem = true) (h : step s = .next t) : Memory.wf t.mem = true := by
  obtain ⟨-, ⟨e, rest, -, he⟩ | ⟨-, rfl | hp | ⟨i, -, hi⟩⟩⟩ := step_cases h
  · exact runEvent_wf (s := s.setPending rest) hm he
  · exact hm
  · exact finishPull_wf hm hp
  · exact exec_wf hm hi

end Sys2Proof.Machine

open Sys2Proof Sys2Proof.Machine

/-- Settles O53: every operation, and every step of another agent inside one, stores by operations that keep the canonical form. -/
theorem stepKeepsMemoryCanonical : Obligations.StepKeepsMemoryCanonical := by
  unfold Obligations.StepKeepsMemoryCanonical
  exact fun _ _ => step_wf
end

section
/-! SUPPORT. O7: a store writes the bytes of its value in little-endian order (20_memory.md R73), and each byte is read back where
it stands. -/

namespace Sys2Proof.Machine

variable {m : Memory}

/-- The first `n` bytes of a value, least significant first. -/
def leBytes {w : Nat} (n : Nat) (v : BitVec w) : List Byte := (List.range n).map fun i => v.extractLsb' (8 * i) 8

@[simp] theorem length_leBytes {w : Nat} (n : Nat) (v : BitVec w) : (leBytes n v).length = n := by simp [leBytes]

theorem getElem?_leBytes {w n i : Nat} (v : BitVec w) (hi : i < n) : (leBytes n v)[i]? = some (v.extractLsb' (8 * i) 8) := by
  simp [leBytes, hi]

/-- A byte of a half, a word or a double word taken out of a wider value is a byte of that value. -/
theorem extractLsb'_extractLsb'_byte {w : Nat} (v : BitVec w) {k i n : Nat} (hi : i + 8 ≤ n) :
    (v.extractLsb' k n).extractLsb' i 8 = v.extractLsb' (k + i) 8 := by
  ext j hj
  simp [Nat.add_assoc, show i + j < n by omega]

theorem store16_eq_writeBytes (m : Memory) (a : Addr) (v : Half) : store16 m a v = writeBytes m a (leBytes 2 v) := rfl

theorem store32_eq_writeBytes (m : Memory) (a : Addr) (v : Word) : store32 m a v = writeBytes m a (leBytes 4 v) :=
  store32_eq m a v

theorem writeBytes_append (m : Memory) (a : Addr) (k l : List Byte) :
    writeBytes m a (k ++ l) = writeBytes (writeBytes m a k) (a + BitVec.ofNat 64 k.length) l := by
  induction k generalizing m a with
  | nil => simp [writeBytes]
  | cons b k ih =>
    rw [List.cons_append, writeBytes, ih, writeBytes, List.length_cons, Nat.add_comm, BitVec.ofNat_add, BitVec.add_assoc]

/-- The bytes of a double word are those of its low word, then those of its high word. -/
theorem leBytes_eight (v : BitVec 64) : leBytes 8 v = leBytes 4 (v.extractLsb' 0 32) ++ leBytes 4 (v.extractLsb' 32 32) := by
  simp [leBytes, List.range_succ, extractLsb'_extractLsb'_byte]

theorem store64_eq_writeBytes (m : Memory) (a : Addr) (v : BitVec 64) : store64 m a v = writeBytes m a (leBytes 8 v) := by
  rw [leBytes_eight, writeBytes_append, store64, store32_eq_writeBytes, store32_eq_writeBytes]
  rfl

/-- Bytes written in little-endian order read back at their places, and every other byte reads as before. -/
theorem readByte_writeBytes_leBytes {w n : Nat} (v : BitVec w) (a b : Addr) (hn : n ≤ 2 ^ 64) (hm : Memory.wf m = true) :
    readByte (writeBytes m a (leBytes n v)) b =
      if inRange a n b then v.extractLsb' (8 * (b - a).toNat) 8 else readByte m b := by
  split
  · rename_i hin
    have hi : (b - a).toNat < n := by simpa [inRange] using hin
    have hb : a + BitVec.ofNat 64 (b - a).toNat = b := by
      rw [BitVec.ofNat_toNat, BitVec.setWidth_eq, BitVec.add_comm, BitVec.sub_add_cancel]
    have h := readByte_writeBytes_at (a := a) hm (by simpa using hn) (getElem?_leBytes v hi)
    rwa [hb] at h
  · rename_i hout
    exact readByte_writeBytes_outside hm (by simpa using hout)

end Sys2Proof.Machine

open Sys2Proof Sys2Proof.Machine

/-- Settles O7: each store is a write of its value's bytes in little-endian order, byte by byte. -/
theorem storesAreLittleEndian : Obligations.StoresAreLittleEndian := by
  unfold Obligations.StoresAreLittleEndian
  intro m a b hm
  refine ⟨fun v => ?_, fun v => ?_, fun v => ?_⟩
  · rw [store16_eq_writeBytes, readByte_writeBytes_leBytes v a b (by decide) hm]
  · rw [store32_eq_writeBytes, readByte_writeBytes_leBytes v a b (by decide) hm]
  · rw [store64_eq_writeBytes, readByte_writeBytes_leBytes v a b (by decide) hm]
end

section
/-! SUPPORT. O8: the register interface (20_memory.md R72, R76, R80): which register stands at an offset, and what each reads as
after a write. -/

namespace Sys2Proof.Machine

variable {c : Cfg} {s : State}

/-! ### The register map (20_memory.md R80, R81) -/

theorem regInfo_offset_injective (h : c.regmap.valid = true) {q r : Reg} (hqr : (regInfo c q).offset = (regInfo c r).offset) :
    q = r := by
  have hnodup : ([Reg.rfdPidx, .tpdPidx, .tpdCidx, .isr, .imr].map fun r => (regInfo c r).offset).Nodup := by
    simp only [RegMap.valid, Bool.and_eq_true, decide_eq_true_eq] at h
    exact h.2
  have hmem (r : Reg) : r ∈ [Reg.rfdPidx, .tpdPidx, .tpdCidx, .isr, .imr] := by cases r <;> decide
  exact List.inj_on_of_nodup_map hnodup (hmem q) (hmem r) hqr

/-- A register stands at a multiple of its width. -/
theorem regInfo_aligned (h : c.regmap.valid = true) (r : Reg) : (regInfo c r).offset % ((regInfo c r).width / 8) = 0 := by
  simp only [RegMap.valid, Bool.and_eq_true, beq_iff_eq] at h
  cases r <;> simp [regInfo, h]

theorem regAt_eq_none {o : Nat} (h : ∀ q, (regInfo c q).offset ≠ o) : regAt c o = none := by
  simp [regAt, h]

/-- At the offset of a register stands that register and no other. -/
theorem regAt_regInfo (h : c.regmap.valid = true) (r : Reg) : regAt c (regInfo c r).offset = some r := by
  cases ha : regAt c (regInfo c r).offset with
  | none =>
    have hr : r ∈ [Reg.tpdPidx, .tpdCidx, .rfdPidx, .isr, .imr] := by cases r <;> decide
    simpa using List.find?_eq_none.1 ha r hr
  | some q =>
    have hq : (regInfo c q).offset = (regInfo c r).offset := by simpa using List.find?_some ha
    rw [regInfo_offset_injective h hq]

/-! ### The three answers of an access -/

theorem busProblem_own (h : c.regmap.valid = true) (r : Reg) : busProblem c (regInfo c r).offset (regInfo c r).width = none := by
  simp [busProblem, regAt_regInfo h, regInfo_aligned h]

theorem busProblem_width (h : c.regmap.valid = true) {r : Reg} {n : Nat} (hn : n ≠ (regInfo c r).width) :
    busProblem c (regInfo c r).offset n = some .registerWidth := by
  simp [busProblem, regAt_regInfo h, hn.symm]

theorem busProblem_offset {o : Nat} (h : ∀ q, (regInfo c q).offset ≠ o) (n : Nat) : busProblem c o n = some .noSuchRegister := by
  simp [busProblem, regAt_eq_none h]

/-- An access with a problem is refused by its name, whether it writes or reads. -/
theorem bus_of_problem {o n : Nat} {p : Refusal} (h : busProblem s.cfg o n = some p) (v : Word) :
    busWrite o n v s = .refused p ∧ busRead o n s = .error p := by
  simp [busWrite, busRead, h]

/-- An access without one reaches the register at its offset. -/
theorem bus_of_regAt {o n : Nat} {r : Reg} (h : busProblem s.cfg o n = none) (hr : regAt s.cfg o = some r) (v : Word) :
    busWrite o n v s = .next (regWrite r v s) ∧ busRead o n s = .ok (regRead r s) := by
  simp [busWrite, busRead, h, hr]

/-! ### What a write leaves (10_state.md R42, R44) -/

/-- A bit of `ISR` after a write: DIS is replaced, a source bit stays unless a 1 is written to it (R44). -/
theorem getLsbD_isrWrite (dis old v : Word) (i : Nat) :
    (isrWrite dis old v).getLsbD i = if dis.getLsbD i then v.getLsbD i else old.getLsbD i && !v.getLsbD i := by
  by_cases hi : i < 32
  · simp only [isrWrite, BitVec.getLsbD_or, BitVec.getLsbD_and, BitVec.getLsbD_not, hi]
    cases dis.getLsbD i <;> simp
  · have hge (w : Word) : w.getLsbD i = false := BitVec.getLsbD_of_ge w i (by omega)
    simp [hge]

/-- A write of one register leaves what every other reads as. -/
theorem regRead_regWrite_of_ne {q r : Reg} (h : q ≠ r) (v : Word) (s : State) : regRead q (regWrite r v s) = regRead q s := by
  cases q <;> cases r
  case tpdPidx.tpdPidx | tpdCidx.tpdCidx | rfdPidx.rfdPidx | isr.isr | imr.imr => exact absurd rfl h
  all_goals rfl

/-- `TPD_CIDX` is read-only to the core (R42). -/
theorem regRead_tpdCidx_regWrite (r : Reg) (v : Word) (s : State) : regRead .tpdCidx (regWrite r v s) = regRead .tpdCidx s := by
  cases r <;> rfl

end Sys2Proof.Machine

open Sys2Proof Sys2Proof.Machine

/-- Settles O8: a usable `REGMAP` puts one register at each offset (`regAt_regInfo`), and a write changes that register alone. -/
theorem registerInterfaceReachesFiveRegisters : Obligations.RegisterInterfaceReachesFiveRegisters := by
  unfold Obligations.RegisterInterfaceReachesFiveRegisters
  intro s r v hv
  obtain ⟨hwrite, hread⟩ := bus_of_regAt (busProblem_own hv r) (regAt_regInfo hv r) v
  exact ⟨hwrite, hread, fun n hn => bus_of_problem (busProblem_width hv hn) v,
    fun o n ho => bus_of_problem (busProblem_offset ho n) v, getLsbD_isrWrite s.cfg.isr.dis s.mac.regs.isr v, rfl, rfl, rfl,
    regRead_tpdCidx_regWrite r v s, fun q hq => regRead_regWrite_of_ne hq v s⟩
end

section
/-! SUPPORT. The operation word (30_encoding.md R130 to R132): its two fields, the formats, and decoding as the inverse of
encoding (O1, O2). -/

namespace Sys2Proof

variable {i : Instr} {w : Word}

/-! ### The fields of a word -/

theorem toNat_opwOpcode (w : Word) : (opwOpcode w).toNat = w.toNat % 256 := by
  simp [opwOpcode, BitVec.extractLsb'_toNat]

theorem toNat_opwImm (w : Word) : (opwImm w).toNat = w.toNat / 256 := by
  have hw : w.toNat < 2 ^ 32 := w.isLt
  rw [opwImm, BitVec.extractLsb'_toNat, Nat.shiftRight_eq_div_pow]
  omega

/-- A word is its two fields, and nothing else stands in it (R131). -/
theorem word_ext {v : Word} (hop : opwOpcode w = opwOpcode v) (himm : opwImm w = opwImm v) : w = v := by
  have h0 := congrArg BitVec.toNat hop
  have h1 := congrArg BitVec.toNat himm
  rw [toNat_opwOpcode, toNat_opwOpcode] at h0
  rw [toNat_opwImm, toNat_opwImm] at h1
  exact BitVec.eq_of_toNat_eq (by omega)

@[simp] theorem opwOpcode_encode (i : Instr) : opwOpcode (encode i) = i.opcode := (Laws.fields_append i.imm i.opcode).1

@[simp] theorem opwImm_encode (i : Instr) : opwImm (encode i) = i.imm := (Laws.fields_append i.imm i.opcode).2

theorem eq_encode_iff : w = encode i ↔ opwOpcode w = i.opcode ∧ opwImm w = i.imm := by
  constructor
  · rintro rfl
    exact ⟨opwOpcode_encode i, opwImm_encode i⟩
  · rintro ⟨hop, himm⟩
    exact word_ext (by rw [hop, opwOpcode_encode]) (by rw [himm, opwImm_encode])

/-! ### The formats (R131): what each reads from `imm`, and the operation it answers -/

theorem decodeOp0_eq_ok {j : Instr} {imm : BitVec 24} : decodeOp0 i imm = .ok j ↔ imm = 0#24 ∧ i = j := by
  unfold decodeOp0
  split <;> simp [*]

theorem decodeOpm_eq_ok {imm : BitVec 24} : decodeOpm imm = .ok i ↔ ∃ on, i = .pollMode on ∧ imm = i.imm := by
  unfold decodeOpm
  constructor
  · intro h
    split at h
    · cases h; exact ⟨false, rfl, ‹_›⟩
    · split at h
      · cases h; exact ⟨true, rfl, ‹_›⟩
      · cases h
  · rintro ⟨on, rfl, rfl⟩
    cases on <;> rfl

/-- An operand is a medium code when its reserved bits are 0 and its five low bits are the code. -/
theorem eq_setWidth_iff {imm : BitVec 24} {m : BitVec 5} :
    imm = m.setWidth 24 ↔ imm.extractLsb' 5 19 = 0#19 ∧ imm.extractLsb' 0 5 = m := by
  have himm : imm.toNat < 2 ^ 24 := imm.isLt
  simp only [← BitVec.toNat_inj, BitVec.extractLsb'_toNat, Nat.shiftRight_eq_div_pow, BitVec.toNat_setWidth, BitVec.toNat_ofNat]
  omega

theorem decodeOpd_eq_ok {imm : BitVec 24} : decodeOpd imm = .ok i ↔ ∃ m, i = .mediumSelect m ∧ imm = i.imm := by
  unfold decodeOpd
  constructor
  · intro h
    split at h
    · cases h; exact ⟨_, rfl, eq_setWidth_iff.2 ⟨‹_›, rfl⟩⟩
    · cases h
  · rintro ⟨m, rfl, himm⟩
    obtain ⟨hreserved, hcode⟩ := eq_setWidth_iff.1 himm
    rw [if_pos hreserved, hcode]

/-- An operation without operand, read by its own arm of the decoder. -/
theorem fields_of_decodeOp0 {j : Instr} {op : BitVec 8} {imm : BitVec 24} (h : decodeOp0 j imm = .ok i)
    (hop : op.toNat = j.opcode.toNat) (hj : j.imm = 0#24) : op = i.opcode ∧ imm = i.imm := by
  obtain ⟨himm, rfl⟩ := decodeOp0_eq_ok.1 h
  exact ⟨BitVec.eq_of_toNat_eq hop, himm.trans hj.symm⟩

/-! ### Decoding -/

/-- An operation decoded from a word has its number and its operand in the word's fields: one arm of the decoder per row of
R130. -/
theorem fields_of_decode (h : decode w = .ok i) : opwOpcode w = i.opcode ∧ opwImm w = i.imm := by
  unfold decode at h
  split at h <;> rename_i hop
  case h_10 | h_13 => cases h; exact ⟨BitVec.eq_of_toNat_eq hop, rfl⟩
  case h_14 =>
    obtain ⟨on, rfl, himm⟩ := decodeOpm_eq_ok.1 h
    exact ⟨BitVec.eq_of_toNat_eq hop, himm⟩
  case h_21 =>
    obtain ⟨m, rfl, himm⟩ := decodeOpd_eq_ok.1 h
    exact ⟨BitVec.eq_of_toNat_eq hop, himm⟩
  case h_22 => cases h
  all_goals exact fields_of_decodeOp0 h hop rfl

/-- The decoder takes every word the encoder writes. -/
theorem decode_encode (i : Instr) : decode (encode i) = .ok i := by
  unfold decode
  rw [opwOpcode_encode, opwImm_encode]
  cases i
  case pollMode on => exact decodeOpm_eq_ok.2 ⟨on, rfl, rfl⟩
  case mediumSelect m => exact decodeOpd_eq_ok.2 ⟨m, rfl, rfl⟩
  all_goals rfl

theorem decode_eq_ok_iff : decode w = .ok i ↔ w = encode i := by
  constructor
  · exact fun h => eq_encode_iff.2 (fields_of_decode h)
  · rintro rfl
    exact decode_encode i

/-! ### Why a word is illegal (R132) -/

theorem decodeOp0_error {e : DecodeError} {imm : BitVec 24} (h : decodeOp0 i imm = .error e) : e = .operandNotZero := by
  unfold decodeOp0 at h
  split at h <;> cases h
  rfl

theorem decodeOpm_error {e : DecodeError} {imm : BitVec 24} (h : decodeOpm imm = .error e) : e = .pollModeOperand := by
  unfold decodeOpm at h
  split at h
  · cases h
  · split at h <;> cases h
    rfl

theorem decodeOpd_error {e : DecodeError} {imm : BitVec 24} (h : decodeOpd imm = .error e) : e = .mediumReserved := by
  unfold decodeOpd at h
  split at h <;> cases h
  rfl

/-- The words illegal for the reserved bits of a medium are the illegal words of that opcode. -/
theorem eq_mediumReserved_iff {e : DecodeError} (h : decode w = .error e) : e = .mediumReserved ↔ w.toNat % 256 = 0x49 := by
  rw [← toNat_opwOpcode]
  unfold decode at h
  split at h <;> rename_i hop
  case h_10 | h_13 => cases h
  case h_14 => rw [hop, decodeOpm_error h]; decide
  case h_21 => rw [hop, decodeOpd_error h]; decide
  case h_22 => cases h; simpa using hop
  all_goals rw [hop, decodeOp0_error h]; decide

end Sys2Proof

open Sys2Proof Sys2Proof.Machine

/-- Settles O1: a word is its two fields (`eq_encode_iff`), and each arm of the decoder reads both (`fields_of_decode`). -/
theorem decodeIsTheInverseOfEncode : Obligations.DecodeIsTheInverseOfEncode := by
  unfold Obligations.DecodeIsTheInverseOfEncode
  exact fun _ _ => decode_eq_ok_iff

/-- Settles O2: each word is the one the encoder writes for its operation (`decode_eq_ok_iff`). -/
theorem wordsOfTheSpecDecode : Obligations.WordsOfTheSpecDecode := by
  unfold Obligations.WordsOfTheSpecDecode
  simp only [decode_eq_ok_iff]
  decide
end

section
/-! SUPPORT. One step on a request and one with nothing scheduled (30_encoding.md R130, R132), and O3, O4 from them. -/

namespace Sys2Proof.Machine

variable {s : State} {r : Request} {rest : List Event} {i : Instr} {m : BitVec 5}

/-! ### Illegal words (30_encoding.md R132) -/

theorem not_illegalWord_encode (i : Instr) : ¬IllegalWord (encode i) := by
  unfold IllegalWord
  rw [← toNat_opwOpcode, ← toNat_opwImm, opwOpcode_encode, opwImm_encode]
  cases i
  case pollMode on => cases on <;> decide
  case rxDrain _ | pollService _ | mediumSelect _ => simp [Instr.opcode, plainOpcodes, operandOpcodes]
  all_goals decide

theorem IllegalWord.opcode_ne {w : Word} (h : IllegalWord w) : w.toNat % 256 ≠ 0x49 := by
  intro hop
  rw [IllegalWord, hop] at h
  revert h
  simp [plainOpcodes, operandOpcodes]

theorem mediumLegal_eq_false_iff (m : BitVec 5) : mediumLegal m = false ↔ m.toNat % 8 = 3 := by
  revert m
  decide

/-- An operation of the opcode of `MEDIUM.SELECT` whose operand is an illegal code (60_exceptions.md R261). -/
theorem IllegalMedium.of_encode (h : IllegalMedium (encode i)) : ∃ m, i = .mediumSelect m ∧ mediumLegal m = false := by
  rw [IllegalMedium, ← toNat_opwOpcode, ← toNat_opwImm, opwOpcode_encode, opwImm_encode] at h
  obtain ⟨hop, hcode⟩ := h
  cases i
  case mediumSelect m =>
    have hm : m.toNat < 2 ^ 5 := m.isLt
    refine ⟨m, rfl, (mediumLegal_eq_false_iff m).2 ?_⟩
    simp only [Instr.imm, BitVec.toNat_setWidth] at hcode
    omega
  all_goals exact absurd hop (by simp [Instr.opcode])

theorem mediumSelect_of_illegal (h : mediumLegal m = false) (s : State) : mediumSelect m s = refuseMedium s := by
  simp [mediumSelect, h]

theorem refuseWord_of_ne {e : DecodeError} (h : e ≠ .mediumReserved) (s : State) : refuseWord e s = refuse s := by
  cases e
  case mediumReserved => exact absurd rfl h
  all_goals rfl

/-! ### A request carried out -/

theorem runRequest_of_decode (h : decode r.word = .ok i) (s : State) : runRequest r s = exec i (s.setArgs r.frame r.link) := by
  simp [runRequest, h]

theorem runRequest_of_error {e : DecodeError} (h : decode r.word = .error e) (s : State) :
    runRequest r s = .next (refuseWord e (s.setArgs r.frame r.link)) := by
  simp [runRequest, h]

theorem runRequest_of_illegalWord (h : IllegalWord r.word) (s : State) :
    runRequest r s = .next (refuse (s.setArgs r.frame r.link)) := by
  cases hd : decode r.word with
  | ok i => exact absurd (decode_eq_ok_iff.1 hd ▸ h) (not_illegalWord_encode i)
  | error e =>
    have he : e ≠ .mediumReserved := fun he => h.opcode_ne ((eq_mediumReserved_iff hd).1 he)
    rw [runRequest_of_error hd, refuseWord_of_ne he]

/-- A malformed medium is refused by the decoder, a 1000 Mb half duplex one by the operation, with one answer. -/
theorem runRequest_of_illegalMedium (h : IllegalMedium r.word) (s : State) :
    runRequest r s = .next (refuseMedium (s.setArgs r.frame r.link)) := by
  cases hd : decode r.word with
  | ok i =>
    obtain ⟨m, rfl, hm⟩ := IllegalMedium.of_encode (decode_eq_ok_iff.1 hd ▸ h)
    rw [runRequest_of_decode hd, ← mediumSelect_of_illegal hm]
    rfl
  | error e =>
    obtain rfl := (eq_mediumReserved_iff hd).2 h.1
    exact runRequest_of_error hd s

/-! ### One step -/

theorem step_of_event {e : Event} (hv : s.cfg.valid = true) (hp : s.pending = e :: rest) :
    step s = runEvent e (s.setPending rest) := by
  simp [step, runNext, hv, hp]

theorem step_of_idle (hv : s.cfg.valid = true) (hp : s.pending = []) : step s = runIdle s := by
  simp [step, runNext, hv, hp]

/-! ### What the idle machine looks at (60_exceptions.md R248, 41_transmit.md R177) -/

theorem irqAsserted_and_enabled_iff (s : State) :
    (irqAsserted s && s.flags.enabled) = true ↔
      s.flags.enabled = true ∧ s.mac.regs.isr &&& s.mac.regs.imr ≠ 0#32 ∧ s.mac.regs.isr &&& s.cfg.isr.dis = 0#32 := by
  simp [irqAsserted, hasBit, and_comm]

theorem pulling_iff (s : State) : pulling s = true ↔ s.puller ≠ .idle := by
  simp [pulling]

theorem pullDue_iff (s : State) :
    pullDue s = true ↔ s.cfg.txSched = .pull ∧ (s.env.resumable = true ∨ s.env.offered = true ∧ s.env.outbound ≠ []) := by
  simp [pullDue]

end Sys2Proof.Machine

open Sys2Proof Sys2Proof.Machine

/-- Settles O3: a word that decodes is its operation's encoding, which is not illegal, so an illegal word meets the decoder's
error or, for 1000 Mb half duplex, the operation's own refusal. -/
theorem illegalWordsAreRefused : Obligations.IllegalWordsAreRefused := by
  unfold Obligations.IllegalWordsAreRefused
  intro s r rest hv hp
  have hstep : step s = runRequest r (s.setPending rest) := step_of_event hv hp
  constructor
  · intro hw
    rw [hstep, runRequest_of_illegalWord hw]
    rfl
  · intro hm
    rw [hstep, runRequest_of_illegalMedium hm]
    rfl

/-- Settles O4: the arms of `runIdle` in order, each by its condition. -/
theorem requestStepRunsItsOperation : Obligations.RequestStepRunsItsOperation := by
  unfold Obligations.RequestStepRunsItsOperation
  intro s hv
  refine ⟨fun r rest i hp hi => ?_, fun rest hp => step_of_event hv hp, fun hp => ?_⟩
  · exact (step_of_event hv hp).trans (runRequest_of_decode hi _)
  · rw [step_of_idle hv hp, runIdle]
    simp only [← irqAsserted_and_enabled_iff, ← pullDue_iff, ← pulling_iff]
    refine ⟨fun ha => ?_, fun ha hr => ?_, fun ha hr hq => ?_, fun ha hr hq hd => ?_, fun ha hr hq hd => ?_⟩
    · rw [if_pos ha]
    · rw [if_neg ha, if_pos hr]
    · rw [if_neg ha, if_neg (by simp [hr]), if_pos hq]
    · rw [if_neg ha, if_neg (by simp [hr]), if_neg (by simp [pulling, hq]), if_pos hd]
    · rw [if_neg ha, if_neg (by simp [hr]), if_neg (by simp [pulling, hq]), if_neg hd]
end

section
open Sys2Proof Sys2Proof.Machine

/-- Settles O6: an index moves by sums modulo the length, and as many steps lie between as were taken. -/
theorem ringIndexLaws : Obligations.RingIndexLaws := by
  unfold Obligations.RingIndexLaws
  intro e i he hi
  have hround : inc i (2 ^ e) (2 ^ e) = i :=
    BitVec.eq_of_toNat_eq (by rw [inc_toNat he, Nat.add_mod_right, Nat.mod_eq_of_lt hi])
  have hwrap : inc (BitVec.ofNat 16 (2 ^ e - 1)) 1 (2 ^ e) = 0#16 := by
    have hle := two_pow_le_half he
    have hpos : 0 < 2 ^ e := by positivity
    have hlast : (BitVec.ofNat 16 (2 ^ e - 1)).toNat + 1 = 2 ^ e := by
      rw [BitVec.toNat_ofNat, Nat.mod_eq_of_lt (by omega)]
      omega
    exact BitVec.eq_of_toNat_eq (by rw [inc_toNat he, hlast, Nat.mod_self]; rfl)
  refine ⟨inc_zero he hi, inc_inc he i, hround, hwrap, inc_toNat he i, fun k hk => ?_⟩
  have hdist := dist_inc_right he (b := i) (k := k) hi
  rw [dist_self, Nat.zero_add] at hdist
  exact hdist hk
end

section
/-! SUPPORT. Where the descriptors of a ring stand (40_rings.md R141, 20_memory.md R77): inside the ring, no two sharing a byte. -/

namespace Sys2Proof.Machine

/-! ### The configuration (70_reset_and_hazards.md R286; log entry 3) -/

/-- A usable configuration has rings that fit the index and the address space. -/
theorem Cfg.ringBytes_of_valid {c : Cfg} (h : c.valid = true) :
    (c.nTx ≤ 2 ^ 16 ∧ txBytes c ≤ 2 ^ 64) ∧ (c.nRrd ≤ 2 ^ 16 ∧ rrdBytes c ≤ 2 ^ 64) ∧
      (c.nRfd ≤ 2 ^ 16 ∧ rfdBytes c ≤ 2 ^ 64) := by
  simp only [Cfg.valid, Cfg.ringsValid, Cfg.layoutValid, Bool.and_eq_true, decide_eq_true_eq] at h
  obtain ⟨⟨⟨⟨⟨⟨⟨⟨-, htx⟩, hrrd⟩, hrfd⟩, -⟩, -⟩, -⟩, -⟩, ⟨⟨-, htx64⟩, hrrd64⟩, hrfd64⟩ := h
  simp only [txBytes, rrdBytes, rfdBytes, Nat.mul_comm]
  omega

/-- The field of a free descriptor lies inside it. -/
theorem Cfg.rfdAddr_of_valid {c : Cfg} (h : c.valid = true) : c.layout.rfdAddr + 8 ≤ c.layout.rfdSize := by
  simp only [Cfg.valid, Cfg.layoutValid, Layout.placesValid, bytesFit, Bool.and_eq_true, decide_eq_true_eq, List.all_cons] at h
  tauto

/-! ### Slots -/

section
variable {base x : Addr} {size n i j : Nat} (hn : n ≤ 2 ^ 16) (hsize : size * n ≤ 2 ^ 64)

/-- The `i`-th descriptor of a ring. -/
def ringSlot (base : Addr) (size i : Nat) : Region := { base := slotAddr base size (BitVec.ofNat 16 i), size := size }

theorem slotRegions_eq (base : Addr) (size n : Nat) : slotRegions base size n = (List.range n).map (ringSlot base size) := rfl

include hn hsize

/-- How far into the ring a byte of a descriptor stands. -/
theorem inRange_ringSlot_iff (hi : i < n) :
    inRange (ringSlot base size i).base size x = true ↔ size * i ≤ (x - base).toNat ∧ (x - base).toNat < size * i + size := by
  have hslot : size * i + size ≤ 2 ^ 64 := by
    have := Nat.mul_le_mul_left size (Nat.succ_le_of_lt hi)
    rw [Nat.mul_succ] at this
    omega
  have hidx : (BitVec.ofNat 16 i).toNat = i := by rw [BitVec.toNat_ofNat, Nat.mod_eq_of_lt (by omega)]
  simp only [inRange, ringSlot, slotAddr, hidx, decide_eq_true_eq, BitVec.toNat_sub, BitVec.toNat_add, BitVec.toNat_ofNat]
  generalize size * i = off at *
  have := x.isLt
  have := base.isLt
  omega

theorem inRange_ring_of_slot (hi : i < n) (hx : inRange (ringSlot base size i).base size x = true) :
    inRange base (size * n) x = true := by
  obtain ⟨-, hx⟩ := (inRange_ringSlot_iff hn hsize hi).1 hx
  have := Nat.mul_le_mul_left size (Nat.succ_le_of_lt hi)
  rw [Nat.mul_succ] at this
  simp only [inRange, decide_eq_true_eq]
  omega

theorem ringSlot_disjoint (hi : i < n) (hj : j < n) (hij : i ≠ j) (hx : inRange (ringSlot base size i).base size x = true) :
    inRange (ringSlot base size j).base size x = false := by
  obtain ⟨hlo, hhi⟩ := (inRange_ringSlot_iff hn hsize hi).1 hx
  rw [← Bool.not_eq_true, inRange_ringSlot_iff hn hsize hj]
  rintro ⟨hlo', hhi'⟩
  rcases Nat.lt_or_gt_of_ne hij with h | h
  · have := Nat.mul_le_mul_left size (Nat.succ_le_of_lt h)
    rw [Nat.mul_succ] at this
    omega
  · have := Nat.mul_le_mul_left size (Nat.succ_le_of_lt h)
    rw [Nat.mul_succ] at this
    omega

theorem ringSlot_apart (hi : i < n) (hj : j < n) (hij : i ≠ j) :
    apart (ringSlot base size i) (ringSlot base size j) = true := by
  have hout {i j : Nat} (hi : i < n) (hj : j < n) (hij : i ≠ j) :
      inRange (ringSlot base size i).base size (ringSlot base size j).base = false := by
    rcases Nat.eq_zero_or_pos size with rfl | hpos
    · simp [inRange]
    · exact ringSlot_disjoint hn hsize hj hi hij.symm (by simpa [inRange] using hpos)
  simp only [apart, Bool.and_eq_true, Bool.not_eq_true']
  exact ⟨hout hi hj hij, hout hj hi hij.symm⟩

/-- Two descriptors of a ring are one, or share no byte. -/
theorem slotRegions_sameOrApart {p q : Region} (hp : p ∈ slotRegions base size n) (hq : q ∈ slotRegions base size n) :
    SameOrApart p q := by
  rw [slotRegions_eq] at hp hq
  obtain ⟨i, hi, rfl⟩ := List.mem_map.1 hp
  obtain ⟨j, hj, rfl⟩ := List.mem_map.1 hq
  by_cases hij : i = j
  · exact .inl (by rw [hij])
  · exact .inr (ringSlot_apart hn hsize (List.mem_range.1 hi) (List.mem_range.1 hj) hij)

end

end Sys2Proof.Machine
end

section
/-! SUPPORT. O33, O34: a ring zeroed a second time (40_rings.md R149). The core stores what stands there already, so what the MAC
sees through the late stores (20_memory.md R88) is the same. -/

namespace Sys2Proof.Machine

variable {m k : Memory} {s t : State} {slots : List Region}

/-! ### Memory as the MAC sees it -/

theorem zeroRange_zeroRange (m : Memory) (a : Addr) (n : Nat) : zeroRange (zeroRange m a n) a n = zeroRange m a n := by
  simp [zeroRange, List.filter_filter]

theorem overlay_append (m : Memory) (k l : List LateStore) : overlay m (k ++ l) = overlay (overlay m k) l :=
  List.foldl_append

/-- What stands in memory, written again, changes nothing. -/
theorem readByte_writeBytes_same {a x : Addr} {l : List Byte} (hm : Memory.wf m = true) (hl : l = readBytes m a l.length) :
    readByte (writeBytes m a l) x = readByte m x := by
  by_cases hx : inRange a l.length x = true
  · rw [hl]
    exact readByte_writeBytes_readBytes m hm hx
  · exact readByte_writeBytes_outside hm (by simpa using hx)

theorem readByte_writeBytes_congr (hm : Memory.wf m = true) (hk : Memory.wf k = true)
    (h : ∀ x, readByte m x = readByte k x) (a : Addr) (l : List Byte) (x : Addr) :
    readByte (writeBytes m a l) x = readByte (writeBytes k a l) x := by
  induction l generalizing m k a with
  | nil => exact h x
  | cons b l ih =>
    refine ih (writeByte_wf _ _ hm) (writeByte_wf _ _ hk) (fun y => ?_) _
    rw [readByte_writeByte _ _ _ hm, readByte_writeByte _ _ _ hk, h]

/-- Through the same late stores memories that read alike read alike. -/
theorem readByte_overlay_congr (hm : Memory.wf m = true) (hk : Memory.wf k = true)
    (h : ∀ x, readByte m x = readByte k x) (l : List LateStore) (x : Addr) :
    readByte (overlay m l) x = readByte (overlay k l) x := by
  induction l generalizing m k with
  | nil => exact h x
  | cons e l ih =>
    exact ih (writeBytes_wf _ _ hm) (writeBytes_wf _ _ hk) fun y => readByte_writeBytes_congr hm hk h e.base e.seen y

/-- Late stores before which the same stood are not seen to be late. -/
theorem readByte_overlay_same {l : List LateStore} (hm : Memory.wf m = true)
    (hl : ∀ e ∈ l, e.seen = readBytes m e.base e.seen.length) (x : Addr) : readByte (overlay m l) x = readByte m x := by
  induction l with
  | nil => rfl
  | cons e l ih =>
    have he := hl e List.mem_cons_self
    rw [overlay_cons, readByte_overlay_congr (writeBytes_wf _ _ hm) hm (fun y => readByte_writeBytes_same hm he) l x]
    exact ih fun d hd => hl d (List.mem_cons_of_mem _ hd)

/-! ### Stores to whole descriptors -/

@[simp] theorem lateRegion_beforeStore (slots : List Region) (s : State) (r : Region) :
    lateRegion (beforeStore slots s r) = r := by
  simp [lateRegion, beforeStore]

theorem fitsSlots_iff {e : LateStore} : fitsSlots slots e = true ↔ ∀ r ∈ slots, SameOrApart (lateRegion e) r := by
  simp [fitsSlots, SameOrApart]

section
variable (hslots : ∀ p ∈ slots, ∀ q ∈ slots, SameOrApart p q)
include hslots

/-- Held back, every store to the descriptors is to one of them whole. -/
theorem fitsSlots_of_mem_held (hslow : s.env.slowBus = true) {e : LateStore} (he : e ∈ held slots s) :
    fitsSlots slots e = true := by
  rw [held, if_pos hslow] at he
  rcases List.mem_append.1 he with he | he
  · obtain ⟨r, hr, rfl⟩ := List.mem_map.1 he
    rw [fitsSlots_iff, lateRegion_beforeStore]
    exact hslots r hr
  · exact (List.mem_filter.1 he).2

/-- The same stores to the same descriptors once more: the MAC sees no difference. -/
theorem readByte_overlay_held_again (hm : Memory.wf t.mem = true) (hslow : t.env.slowBus = true)
    (hbus : s.env.slowBus = true) (hlate : t.late = held slots s) (x : Addr) :
    readByte (overlay t.mem (held slots t)) x = readByte (overlay t.mem t.late) x := by
  have hfits : ∀ e ∈ t.late, fitsSlots slots e = true := fun e he => fitsSlots_of_mem_held hslots hbus (hlate ▸ he)
  have hnone : (t.late.filter fun e => !fitsSlots slots e) = [] :=
    List.filter_eq_nil_iff.2 fun e he => by simp [hfits e he]
  rw [held, if_pos hslow, List.filter_eq_self.2 hfits, overlay_append]
  refine readByte_overlay_congr (overlay_wf hm) hm (fun y => readByte_overlay_same hm (fun e he => ?_) y) t.late x
  obtain ⟨r, -, rfl⟩ := List.mem_map.1 he
  simp only [beforeStore, hnone, length_readBytes]
  rw [macView_nil rfl, State.setLate_mem]

end

/-! ### Stores that are not held back -/

theorem held_again (hbus : s.env.slowBus = false) (hslow : t.env.slowBus = false) (hlate : t.late = held slots s) :
    held slots t = t.late := by
  simp [held, hbus, hslow, hlate, List.filter_filter]

/-- A doorbell write that reaches the MAC takes with it every store behind a fence. -/
theorem lateAfter_of_fences {n : Nat} {l : List LateStore} (h : ∀ e ∈ l, ∀ k, e.due = some k → k ≤ n) :
    lateAfter (n + 1) l = l.filter fun e => e.due.isNone := by
  induction l with
  | nil => rfl
  | cons e l ih =>
    have ih := ih fun d hd => h d (List.mem_cons_of_mem _ hd)
    have he := h e List.mem_cons_self
    rw [lateAfter] at ih ⊢
    obtain ⟨b, v, _ | j⟩ := e
    · simp [afterBells, ih]
    · have hj : j < n + 1 := Nat.lt_succ_of_le (he j rfl)
      simp [afterBells, hj, ih]

/-- A second doorbell write takes nothing more. -/
theorem lateAfterBell_held_again (hbus : s.env.slowBus = false) (hslow : t.env.slowBus = false) (hposted : t.posted = [])
    (hfences : FencesPosted s) (hlate : t.late = lateAfterBell s (held slots s)) :
    lateAfterBell t (held slots t) = t.late := by
  have hfirst : t.late = (held slots s).filter fun e => e.due.isNone := by
    rw [hlate, lateAfterBell, if_neg (by simp [hbus])]
    refine lateAfter_of_fences fun e he => hfences e ?_
    rw [held, if_neg (by simp [hbus])] at he
    exact (List.mem_filter.1 he).1
  have hsame : held slots t = t.late := by
    rw [hfirst, held, held, if_neg (by simp [hslow]), if_neg (by simp [hbus]), hfirst, held, if_neg (by simp [hbus])]
    simp only [List.filter_filter]
    exact List.filter_congr fun e _ => by cases e.due.isNone <;> simp
  have hdone : ∀ e ∈ t.late, e.due.isNone = true := fun e he => by
    rw [hfirst] at he
    exact (List.mem_filter.1 he).2
  have hnone : lateAfter (0 + 1) t.late = t.late.filter fun e => e.due.isNone :=
    lateAfter_of_fences fun e he k hk => by simpa [hk] using hdone e he
  rw [lateAfterBell, if_neg (by simp [hslow]), hsame, hposted, List.length_nil, hnone]
  exact List.filter_eq_self.2 hdone

end Sys2Proof.Machine
end

section
/-! SUPPORT. O33 to O35: the meanings of `TX.CLEAR`, `RX.RESET` and `RING.TEARDOWN` in full (40_rings.md R146 to R148). -/

namespace Sys2Proof.Machine

variable {s t : State} {r : Result}

/-! ### Zeroed regions -/

theorem zeroBytes_zeroRange {m : Memory} (base : Addr) (n : Nat) (hm : Memory.wf m = true) :
    ZeroBytes (zeroRange m base n) base n := fun a ha => by rw [readByte_zeroRange _ _ _ hm, if_pos ha]

/-- A zeroed region stays so while others are zeroed. -/
theorem ZeroBytes.zeroRange {m : Memory} {a base : Addr} {k n : Nat} (hm : Memory.wf m = true) (h : ZeroBytes m a k) :
    ZeroBytes (zeroRange m base n) a k := fun x hx => by
  rw [readByte_zeroRange _ _ _ hm, h x hx, ite_self]

theorem readByte_zeroRange_outside {m : Memory} {base a : Addr} {n : Nat} (hm : Memory.wf m = true)
    (ha : inRange base n a = false) : readByte (zeroRange m base n) a = readByte m a := by
  rw [readByte_zeroRange _ _ _ hm, if_neg (by simp [ha])]

/-! ### The descriptors of one ring -/

theorem txSlots_sameOrApart (hv : s.cfg.valid = true) : ∀ p ∈ txSlots s, ∀ q ∈ txSlots s, SameOrApart p q := by
  obtain ⟨⟨hn, hsize⟩, -, -⟩ := Cfg.ringBytes_of_valid hv
  exact fun p hp q hq => slotRegions_sameOrApart hn hsize hp hq

theorem rrdSlots_sameOrApart (hv : s.cfg.valid = true) : ∀ p ∈ rrdSlots s, ∀ q ∈ rrdSlots s, SameOrApart p q := by
  obtain ⟨-, ⟨hn, hsize⟩, -⟩ := Cfg.ringBytes_of_valid hv
  exact fun p hp q hq => slotRegions_sameOrApart hn hsize hp hq

/-! ### TX.CLEAR (R147) -/

theorem exec_txClear (hu : s.flags.ringsUp = true) (hstop : s.mac.started = false) :
    exec .txClear s = .next ((txClear s).setResult .returned) := by
  change execTxClear s = _
  rw [execTxClear, if_neg (by simp [hu]), if_neg (by simp [hstop])]

theorem txClear_eq (s : State) :
    txClear s = { s with
      tx := emptyTx s.cfg s.tx, mem := zeroRange s.mem s.tx.ringPhys (txBytes s.cfg), late := held (txSlots s) s,
      trace := ((inFlight s.tx.mbuf).map (Act.release · false)).reverse ++ s.trace } := by
  rw [txClear, releaseAll_eq]
  rfl

@[simp] theorem emptyTx_ringPhys (c : Cfg) (t : TxSide) : (emptyTx c t).ringPhys = t.ringPhys := rfl

/-- A cleared transmit side holds no frame. -/
@[simp] theorem inFlight_emptyTx (c : Cfg) (t : TxSide) : inFlight (emptyTx c t).mbuf = [] := by
  simp [inFlight, emptyTx]

@[simp] theorem txClear_tx (s : State) : (txClear s).tx = emptyTx s.cfg s.tx := by rw [txClear_eq]

@[simp] theorem txClear_mem (s : State) : (txClear s).mem = zeroRange s.mem s.tx.ringPhys (txBytes s.cfg) := by
  rw [txClear_eq]

@[simp] theorem txClear_late (s : State) : (txClear s).late = held (txSlots s) s := by rw [txClear_eq]

theorem ringRegions_txClear (s : State) : ringRegions (txClear s) = ringRegions s := by simp [ringRegions]

/-- A second clear changes nothing but, perhaps, what the MAC does not see yet. -/
theorem txClear_again (s : State) (r : Result) :
    (txClear ((txClear s).setResult r)).setResult r =
      ((txClear s).setResult r).setLate (held (txSlots s) ((txClear s).setResult r)) := by
  rw [txClear_eq ((txClear s).setResult r)]
  have hslots : txSlots ((txClear s).setResult r) = txSlots s := by simp [txSlots]
  refine State.eq_of_fields (h2 := ?tx) (h12 := ?mem) (h18 := ?trace) (h19 := ?late) rfl rfl rfl rfl rfl rfl rfl rfl rfl rfl
    rfl rfl rfl rfl rfl rfl rfl rfl
  case tx => simp [emptyTx]
  case mem => simp [zeroRange_zeroRange]
  case trace => simp
  case late => simp [hslots]

/-! ### RX.RESET (R148) -/

theorem exec_rxReset (hu : s.flags.ringsUp = true) (hstop : s.mac.started = false) :
    exec .rxReset s = .next ((offerAll (rxResetRings s)).setResult .returned) := by
  change execRxReset s = _
  rw [execRxReset, if_neg (by simp [hu]), if_neg (by simp [hstop])]

theorem offerAll_rxResetRings_eq (s : State) :
    offerAll (rxResetRings s) = { s with
      rx := { s.rx with next := 0#16, free := 0#16 },
      mac := { s.mac with regs := { s.mac.regs with rfdPidx := BitVec.ofNat 16 (s.cfg.nRfd - 1) } },
      mem := zeroRange s.mem s.rx.rrdPhys (rrdBytes s.cfg), late := lateAfterBell s (held (rrdSlots s) s),
      posted := postedAfter .rx s,
      trace := .regWrite s.cfg.regmap.rfdPidx.offset s.cfg.regmap.rfdPidx.width
        (BitVec.ofNat 32 (s.cfg.nRfd - 1)) :: s.trace } := by
  have hidx : (BitVec.ofNat 32 (s.cfg.nRfd - 1)).setWidth 16 = BitVec.ofNat 16 (s.cfg.nRfd - 1) :=
    BitVec.setWidth_ofNat_of_le (by decide) _
  rw [← hidx]
  rfl

/-- A second reset changes nothing but what the MAC does not see yet, the doorbell writes posted and the record. -/
theorem rxReset_again (h : t = (offerAll (rxResetRings s)).setResult r) :
    (offerAll (rxResetRings t)).setResult r = { t with
      late := lateAfterBell t (held (rrdSlots s) t), posted := postedAfter .rx t,
      trace := .regWrite s.cfg.regmap.rfdPidx.offset s.cfg.regmap.rfdPidx.width
        (BitVec.ofNat 32 (s.cfg.nRfd - 1)) :: t.trace } := by
  rw [offerAll_rxResetRings_eq] at h ⊢
  subst h
  refine State.eq_of_fields (h12 := ?mem) rfl rfl rfl rfl rfl rfl rfl rfl rfl rfl rfl rfl rfl rfl rfl rfl rfl rfl rfl rfl rfl
  exact zeroRange_zeroRange _ _ _

/-! ### RING.TEARDOWN (R146) -/

theorem exec_ringTeardown (he : s.flags.enabled = false) (hu : s.flags.ringsUp = true) (hstop : s.mac.started = false) :
    exec .ringTeardown s = .next ((ringTeardown s).setResult .returned) := by
  change execRingTeardown s = _
  rw [execRingTeardown, if_neg (by simp [he, hu]), if_neg (by simp [hstop])]

/-- Host memory with the three rings zeroed. -/
def zeroedRings (s : State) : Memory :=
  zeroRange (zeroRange (zeroRange s.mem s.tx.ringPhys (txBytes s.cfg)) s.rx.rrdPhys (rrdBytes s.cfg)) s.rx.rfdPhys
    (rfdBytes s.cfg)

theorem zeroRings_eq (s : State) : zeroRings s = s.setMem (zeroedRings s) := rfl

theorem zeroedRings_zero (hm : Memory.wf s.mem = true) {r : Region} (hr : r ∈ ringRegions s) :
    ZeroBytes (zeroedRings s) r.base r.size := by
  have htx := zeroRange_wf s.tx.ringPhys (txBytes s.cfg) hm
  have hrrd := zeroRange_wf s.rx.rrdPhys (rrdBytes s.cfg) htx
  simp only [ringRegions, List.mem_cons, List.not_mem_nil, or_false] at hr
  obtain rfl | rfl | rfl := hr
  · exact ((zeroBytes_zeroRange _ _ hm).zeroRange htx).zeroRange hrrd
  · exact (zeroBytes_zeroRange _ _ htx).zeroRange hrrd
  · exact zeroBytes_zeroRange _ _ hrrd

theorem readByte_zeroedRings_outside (hm : Memory.wf s.mem = true) {a : Addr}
    (ha : ∀ r ∈ ringRegions s, inRange r.base r.size a = false) : readByte (zeroedRings s) a = readByte s.mem a := by
  simp only [ringRegions, List.forall_mem_cons] at ha
  obtain ⟨htx, hrrd, hrfd, -⟩ := ha
  have hwf := zeroRange_wf s.tx.ringPhys (txBytes s.cfg) hm
  rw [zeroedRings, readByte_zeroRange_outside (zeroRange_wf _ _ hwf) hrfd, readByte_zeroRange_outside hwf hrrd,
    readByte_zeroRange_outside hm htx]

/-- The three regions go back in order. -/
theorem freeRings_eq (s : State) :
    freeRings s = { s with
      env := { s.env with live := s.env.live.diff (ringRegions s) },
      trace := [.dmaFree s.rx.rfdPhys (rfdBytes s.cfg), .dmaFree s.rx.rrdPhys (rrdBytes s.cfg),
        .dmaFree s.tx.ringPhys (txBytes s.cfg)] ++ s.trace } := by
  simp [freeRings, dmaFree, dropRegion, State.emit, State.setEnv, ringRegions]

/-- What a teardown does, in the order of R146. -/
def teardownActs (s : State) : List Act :=
  (inFlight s.tx.mbuf).map (.release · false) ++ (tracked s.rx.mbuf).map .bufFree ++ s.pool.spare.map .bufFree ++
    [.dmaFree s.tx.ringPhys (txBytes s.cfg), .dmaFree s.rx.rrdPhys (rrdBytes s.cfg), .dmaFree s.rx.rfdPhys (rfdBytes s.cfg)]

theorem ringTeardown_eq (s : State) :
    ringTeardown s = { s with
      tx := { emptyTx s.cfg s.tx with mbuf := [] }, rx := { s.rx with next := 0#16, free := 0#16, mbuf := [] },
      pool := { spare := [], refillPending := false }, flags := { s.flags with ringsUp := false },
      mem := zeroedRings (txClear s), late := heldAfterClear (rrdSlots s ++ rfdSlots s) s,
      env := { s.env with live := s.env.live.diff (freedRegions s) },
      trace := (teardownActs s).reverse ++ s.trace } := by
  simp only [ringTeardown, txClear_eq, freeAll_eq, freeRings_eq, zeroRings_eq]
  refine State.eq_of_fields (h13 := ?env) (h18 := ?trace) rfl rfl rfl rfl rfl rfl rfl rfl rfl rfl rfl rfl rfl rfl rfl rfl rfl
    rfl rfl rfl
  case env => simp [freedRegions, heldRegions, ringRegions]
  case trace => simp [teardownActs]

end Sys2Proof.Machine

open Sys2Proof Sys2Proof.Machine

/-- Settles O33: the clear in full; a second one releases no frame and stores to the same descriptors what stands there. -/
theorem txClearEmptiesTheTransmitSide : Obligations.TxClearEmptiesTheTransmitSide := by
  unfold Obligations.TxClearEmptiesTheTransmitSide
  intro s hu hstop hm
  have hmem : (txClear s).mem = zeroRange s.mem s.tx.ringPhys (txBytes s.cfg) := txClear_mem s
  refine ⟨_, exec_txClear hu hstop, ?_, newActs_of_trace ?_, ?_, fun a ha => ?_, fun hv _ => ?_⟩
  · rw [txClear_eq]
    rfl
  · rw [txClear_eq]
    rfl
  · rw [State.setResult_mem, hmem]
    exact zeroBytes_zeroRange _ _ hm
  · rw [State.setResult_mem, hmem]
    exact readByte_zeroRange_outside hm (ha _ (.head _))
  · have hlate : ((txClear s).setResult .returned).late = held (txSlots s) s := txClear_late s
    have hbus : ((txClear s).setResult .returned).env.slowBus = s.env.slowBus := by simp
    have hagain (hb : s.env.slowBus = false) := held_again hb (hbus.trans hb) hlate
    refine ⟨_, exec_txClear (by simp [hu]) (by simp [hstop]), ?_⟩
    rw [txClear_again]
    refine ⟨rfl, fun hb => ?_, fun a => ?_⟩
    · rw [hagain hb]
      rfl
    · cases hb : s.env.slowBus with
      | false =>
        rw [hagain hb]
        rfl
      | true => exact readByte_overlay_held_again (txSlots_sameOrApart hv) (txClear_wf hm) (hbus.trans hb) hb hlate a

/-- Settles O34: the reset in full; a second one stores to the same descriptors what stands there. -/
theorem rxResetClearsTheCompletionRing : Obligations.RxResetClearsTheCompletionRing := by
  unfold Obligations.RxResetClearsTheCompletionRing
  intro s hu hstop hm
  refine ⟨_, exec_rxReset hu hstop, ?_⟩
  obtain ⟨t, ht⟩ : ∃ t, t = (offerAll (rxResetRings s)).setResult .returned := ⟨_, rfl⟩
  have heq := offerAll_rxResetRings_eq s
  rw [← ht]
  have hmem : t.mem = zeroRange s.mem s.rx.rrdPhys (rrdBytes s.cfg) := by rw [ht, heq]; rfl
  refine ⟨by rw [ht, heq]; rfl, ?_, fun a ha => ?_, fun hv _ hfences => ?_⟩
  · rw [hmem]
    exact zeroBytes_zeroRange _ _ hm
  · rw [hmem]
    exact readByte_zeroRange_outside hm (ha _ (.head _))
  · have hwf : Memory.wf t.mem = true := hmem ▸ zeroRange_wf _ _ hm
    have hlate : t.late = lateAfterBell s (held (rrdSlots s) s) := by rw [ht, heq]; rfl
    have hposted : t.posted = postedAfter .rx s := by rw [ht, heq]; rfl
    have hbus : t.env.slowBus = s.env.slowBus := by rw [ht, heq]; rfl
    refine ⟨_, exec_rxReset (by simp [ht, hu]) (by simp [ht, heq, hstop]), ?_⟩
    rw [rxReset_again ht]
    cases hb : s.env.slowBus with
    | false =>
      have hnone : t.posted = [] := by simp [hposted, postedAfter, hb]
      have hsame := lateAfterBell_held_again hb (hbus.trans hb) hnone hfences hlate
      have hbell : postedAfter .rx t = t.posted := by simp [hnone, postedAfter, hbus, hb]
      refine ⟨rfl, fun _ => ?_, fun a => ?_⟩
      · rw [hsame, hbell]
      · rw [macView_eq, macView_eq, hsame]
    | true =>
      have hheld : t.late = held (rrdSlots s) s := by rw [hlate, lateAfterBell, if_pos hb]
      refine ⟨rfl, fun h => by simp at h, fun a => ?_⟩
      rw [lateAfterBell, if_pos (hbus.trans hb)]
      exact readByte_overlay_held_again (rrdSlots_sameOrApart hv) hwf (hbus.trans hb) hb hheld a

/-- Settles O35: the teardown in full. -/
theorem ringTeardownReleasesEverything : Obligations.RingTeardownReleasesEverything := by
  unfold Obligations.RingTeardownReleasesEverything
  intro s he hu hstop hm
  refine ⟨_, exec_ringTeardown he hu hstop, ?_⟩
  have hwf : Memory.wf (txClear s).mem = true := txClear_wf hm
  have hrings := ringRegions_txClear s
  have hzero {r : Region} (hr : r ∈ ringRegions s) : ZeroBytes (zeroedRings (txClear s)) r.base r.size :=
    zeroedRings_zero hwf (hrings ▸ hr)
  have hempty : NoRings ((ringTeardown s).setResult .returned) := by
    rw [ringTeardown_eq]
    exact ⟨rfl, rfl, rfl, rfl, rfl, rfl, rfl, rfl, rfl, rfl⟩
  rw [ringTeardown_eq] at hempty ⊢
  refine ⟨rfl, hempty, newActs_of_trace rfl, hzero (.head _), hzero (.tail _ (.head _)), hzero (.tail _ (.tail _ (.head _))),
    fun a ha => ?_, rfl, rfl, rfl, rfl, rfl, rfl, rfl, rfl, rfl, rfl, rfl, rfl, rfl, rfl⟩
  have htx : inRange s.tx.ringPhys (txBytes s.cfg) a = false := ha _ (.head _)
  calc readByte (zeroedRings (txClear s)) a
      = readByte (txClear s).mem a := readByte_zeroedRings_outside hwf (hrings ▸ ha)
    _ = readByte (zeroRange s.mem s.tx.ringPhys (txBytes s.cfg)) a := by rw [txClear_mem]
    _ = readByte s.mem a := readByte_zeroRange_outside hm htx
end

section
/-! SUPPORT. The memory of a `RING.SETUP` (40_rings.md R145): what the zeroed rings, the addresses posted in the free ring and the
contents of the new buffers leave of each byte. -/

namespace Sys2Proof.Machine

variable {m k : Memory} {a x : Addr}

/-! ### Double words (20_memory.md R73) -/

/-- A double word reads alike in memories that agree in its eight bytes. -/
theorem load64_congr (h : ∀ x, inRange a 8 x = true → readByte m x = readByte k x) : load64 m a = load64 k a := by
  have hhalf (off : Nat) (hoff : off ≤ 4) (y : Addr) (hy : inRange (a + BitVec.ofNat 64 off) 4 y = true) :
      inRange a 8 y = true := by
    simp only [inRange, decide_eq_true_eq, BitVec.toNat_sub, BitVec.toNat_add, BitVec.toNat_ofNat] at *
    have := y.isLt
    have := a.isLt
    omega
  have hlow := load32_congr (a := a) fun y hy => h y (hhalf 0 (by omega) y (by simpa using hy))
  have hhigh := load32_congr (a := a + 4#64) fun y hy => h y (hhalf 4 (by omega) y hy)
  rw [load64, load64, hlow, hhigh]

theorem load64_store64 (a : Addr) (v : BitVec 64) (hm : Memory.wf m = true) : load64 (store64 m a v) a = v := by
  have hapart : apart { base := a, size := 4 } { base := a + 4#64, size := 4 } = true := by
    simp only [apart, inRange, Bool.and_eq_true, Bool.not_eq_true', decide_eq_false_iff_not, BitVec.toNat_sub,
      BitVec.toNat_add, BitVec.toNat_ofNat]
    have := a.isLt
    omega
  have hlow := store32_wf a (v.extractLsb' 0 32) hm
  rw [load64, store64, load32_store32 _ _ hlow, load32_store32_of_apart _ hlow hapart, load32_store32 _ _ hm,
    BitVec.extractLsb'_append_extractLsb'_eq_extractLsb' (by rfl)]
  exact BitVec.extractLsb'_eq_self

theorem readByte_store64_outside (v : BitVec 64) (hm : Memory.wf m = true) (hx : inRange a 8 x = false) :
    readByte (store64 m a v) x = readByte m x := by
  rw [store64_eq_writeBytes]
  exact readByte_writeBytes_outside hm (by simpa using hx)

/-! ### The field of a free descriptor (30_encoding.md R109) -/

/-- The field of the `i`-th free descriptor of a ring at `q`. -/
def rfdField (c : Cfg) (q : Addr) (i : Nat) : Region := { base := rfdFieldAddr c q (BitVec.ofNat 16 i), size := 8 }

/-- The free ring at `q`. -/
def rfdRing (c : Cfg) (q : Addr) : Region := { base := q, size := rfdBytes c }

section
variable {c : Cfg} {q : Addr} {i j : Nat} (hv : c.valid = true)
include hv

/-- The field is in its descriptor. -/
theorem inRange_slot_of_rfdField (hx : inRange (rfdField c q i).base (rfdField c q i).size x = true) :
    inRange (ringSlot q c.layout.rfdSize i).base c.layout.rfdSize x = true := by
  have hfit := Cfg.rfdAddr_of_valid hv
  simp only [rfdField, rfdFieldAddr, fieldAddr, ringSlot] at hx ⊢
  generalize slotAddr q c.layout.rfdSize (BitVec.ofNat 16 i) = b at *
  simp only [inRange, decide_eq_true_eq, BitVec.toNat_sub, BitVec.toNat_add, BitVec.toNat_ofNat] at *
  have := x.isLt
  have := b.isLt
  omega

theorem inRange_ring_of_rfdField (hi : i < c.nRfd) (hx : inRange (rfdField c q i).base (rfdField c q i).size x = true) :
    inRange (rfdRing c q).base (rfdRing c q).size x = true := by
  obtain ⟨-, -, hn, hsize⟩ := Cfg.ringBytes_of_valid hv
  exact inRange_ring_of_slot hn hsize hi (inRange_slot_of_rfdField hv hx)

theorem rfdField_disjoint (hi : i < c.nRfd) (hj : j < c.nRfd) (hij : i ≠ j)
    (hx : inRange (rfdField c q i).base (rfdField c q i).size x = true) :
    inRange (rfdField c q j).base (rfdField c q j).size x = false := by
  obtain ⟨-, -, hn, hsize⟩ := Cfg.ringBytes_of_valid hv
  have hslot := ringSlot_disjoint hn hsize hi hj hij (inRange_slot_of_rfdField hv hx)
  by_contra h
  simp [inRange_slot_of_rfdField hv (Bool.eq_true_of_not_eq_false h)] at hslot

end

/-! ### New buffers filled, and posted -/

/-- The bytes a new buffer holds. -/
def fillBuf (size : Nat) (b : BufAnswer) (m : Memory) : Memory := writeBytes m b.phys (b.fill.take (size + b.extra))

/-- New buffers filled one after another. -/
def fillBufs (size : Nat) : List BufAnswer → Memory → Memory
  | [], m => m
  | b :: l, m => fillBufs size l (fillBuf size b m)

/-- New buffers filled and posted in the slots from `i` on. -/
def fillAndPost (c : Cfg) (q : Addr) : Nat → List BufAnswer → Memory → Memory
  | _, [], m => m
  | i, b :: l, m => fillAndPost c q (i + 1) l (store64 (fillBuf c.rxBufSize b m) (rfdField c q i).base b.phys)

theorem fillBuf_wf (size : Nat) (b : BufAnswer) (hm : Memory.wf m = true) : Memory.wf (fillBuf size b m) = true :=
  writeBytes_wf _ _ hm

/-- The byte at `x` is in the memory of none of these buffers. -/
def OutsideBufs (size : Nat) (bufs : List BufAnswer) (x : Addr) : Prop :=
  ∀ b ∈ bufs, inRange (answerRegion size b).base (answerRegion size b).size x = false

theorem readByte_fillBuf_outside {size : Nat} {b : BufAnswer} (hm : Memory.wf m = true)
    (hx : inRange (answerRegion size b).base (answerRegion size b).size x = false) :
    readByte (fillBuf size b m) x = readByte m x := by
  refine readByte_writeBytes_outside hm ?_
  change inRange b.phys (size + b.extra) x = false at hx
  simp only [inRange, decide_eq_false_iff_not, List.length_take] at hx ⊢
  omega

theorem readByte_fillBufs_outside {size : Nat} {bufs : List BufAnswer} (hm : Memory.wf m = true)
    (hx : OutsideBufs size bufs x) : readByte (fillBufs size bufs m) x = readByte m x := by
  induction bufs generalizing m with
  | nil => rfl
  | cons b l ih =>
    obtain ⟨hb, hl⟩ := List.forall_mem_cons.1 hx
    rw [fillBufs, ih (fillBuf_wf size b hm) hl, readByte_fillBuf_outside hm hb]

theorem fillAndPost_wf (c : Cfg) (q : Addr) (i : Nat) (bufs : List BufAnswer) (hm : Memory.wf m = true) :
    Memory.wf (fillAndPost c q i bufs m) = true := by
  induction bufs generalizing m i with
  | nil => exact hm
  | cons b l ih => exact ih _ (store64_wf _ _ (fillBuf_wf _ b hm))

section
variable {c : Cfg} {q : Addr} {i : Nat} {bufs : List BufAnswer} (hm : Memory.wf m = true)
include hm

theorem readByte_fillAndPost_outside (hx : OutsideBufs c.rxBufSize bufs x)
    (hfields : ∀ j < bufs.length, inRange (rfdField c q (i + j)).base (rfdField c q (i + j)).size x = false) :
    readByte (fillAndPost c q i bufs m) x = readByte m x := by
  induction bufs generalizing m i with
  | nil => rfl
  | cons b l ih =>
    obtain ⟨hb, hl⟩ := List.forall_mem_cons.1 hx
    have hwf := fillBuf_wf c.rxBufSize b hm
    have hrest (j : Nat) (hj : j < l.length) :
        inRange (rfdField c q (i + 1 + j)).base (rfdField c q (i + 1 + j)).size x = false := by
      rw [Nat.add_assoc, Nat.add_comm 1]
      exact hfields (j + 1) (Nat.succ_lt_succ hj)
    have hfirst : inRange (rfdField c q i).base 8 x = false := hfields 0 (Nat.succ_pos _)
    rw [fillAndPost, ih (store64_wf _ _ hwf) hl hrest, readByte_store64_outside _ hwf hfirst,
      readByte_fillBuf_outside hm hb]

variable (hv : c.valid = true) (hlen : i + bufs.length ≤ c.nRfd)
include hv hlen

/-- Outside the free ring and the buffers nothing is stored. -/
theorem readByte_fillAndPost_outside_ring (hx : OutsideBufs c.rxBufSize bufs x)
    (hring : inRange (rfdRing c q).base (rfdRing c q).size x = false) :
    readByte (fillAndPost c q i bufs m) x = readByte m x := by
  refine readByte_fillAndPost_outside hm hx fun j hj => ?_
  by_contra h
  simp [inRange_ring_of_rfdField hv (by omega) (Bool.eq_true_of_not_eq_false h)] at hring

/-- Each free descriptor holds the address of its buffer, when no buffer stands in the ring. -/
theorem load64_fillAndPost (hapart : ∀ b ∈ bufs, apart (rfdRing c q) (answerRegion c.rxBufSize b) = true) {j : Nat}
    {b : BufAnswer} (hj : bufs[j]? = some b) : load64 (fillAndPost c q i bufs m) (rfdField c q (i + j)).base = b.phys := by
  induction bufs generalizing m i j with
  | nil => cases hj
  | cons d l ih =>
    obtain ⟨-, hl⟩ := List.forall_mem_cons.1 hapart
    rw [List.length_cons] at hlen
    have hwf := fillBuf_wf c.rxBufSize d hm
    cases j with
    | zero =>
      obtain rfl : d = b := by simpa using hj
      rw [fillAndPost, Nat.add_zero, load64_congr fun x hx => ?_, load64_store64 _ _ hwf]
      refine readByte_fillAndPost_outside (store64_wf _ _ hwf) (fun e he => ?_) fun j hj => ?_
      · exact apart_not_inRange (hl e he) (inRange_ring_of_rfdField (i := i) hv (by omega) hx)
      · exact rfdField_disjoint (i := i) hv (by omega) (by omega) (by omega) hx
    | succ j =>
      rw [fillAndPost, ← Nat.add_assoc, Nat.add_right_comm]
      exact ih (store64_wf _ _ hwf) (by omega) hl (by simpa using hj)

end

end Sys2Proof.Machine
end

section
/-! SUPPORT. What the allocators give a `RING.SETUP` (40_rings.md R145, 43_buffer_pool.md R228): the three regions, the buffers
posted and the spares, each loop as the state it leaves. -/

namespace Sys2Proof.Machine

variable {s : State}

/-! ### Regions given one after another (20_memory.md R86) -/

theorem freshRegions_cons {align : Nat} {p : Region} {l live : List Region} :
    freshRegions align (p :: l) live = true ↔ freeAmong align live p = true ∧ freshRegions align l (p :: live) = true := by
  simp [freshRegions]

theorem apart_of_freeAmong {align : Nat} {p q : Region} {live : List Region} (h : freeAmong align live p = true)
    (hq : q ∈ live) : apart p q = true := by
  simp only [freeAmong, Bool.and_eq_true, List.all_eq_true] at h
  exact h.2 q hq

/-- New regions are apart from those given out before. -/
theorem apart_of_freshRegions {align : Nat} {p q : Region} {l live : List Region} (h : freshRegions align l live = true)
    (hp : p ∈ l) (hq : q ∈ live) : apart p q = true := by
  induction l generalizing live with
  | nil => cases hp
  | cons r l ih =>
    obtain ⟨hr, hl⟩ := freshRegions_cons.1 h
    rcases List.mem_cons.1 hp with rfl | hp
    · exact apart_of_freeAmong hr hq
    · exact ih hl hp (List.mem_cons_of_mem _ hq)

/-- New regions are apart from one another. -/
theorem freshRegions_pairwise {align : Nat} {l live : List Region} (h : freshRegions align l live = true) :
    l.Pairwise fun p q => apart p q = true := by
  induction l generalizing live with
  | nil => exact .nil
  | cons r l ih =>
    obtain ⟨-, hl⟩ := freshRegions_cons.1 h
    refine .cons (fun q hq => ?_) (ih hl)
    rw [apart_comm]
    exact apart_of_freshRegions hl hq List.mem_cons_self

/-- With no rings there is no frame in flight. -/
theorem takenRegions_of_no_rings (hu : s.flags.ringsUp = false) : takenRegions s = s.env.live := by
  simp [takenRegions, sentRegions, hu]

/-- Regions given back that were given out last leave those given out before. -/
theorem reverse_append_diff (l k : List Region) : (l.reverse ++ k).diff l = k := by
  have hsame (l : List Region) : (l ++ k).diff l = k := by
    induction l with
    | nil => rfl
    | cons r l ih => rw [List.cons_append, List.diff_cons, List.erase_cons_head, ih]
  rw [← List.Perm.diff_left _ l.reverse_perm, hsame]

/-! ### The ring regions (R145 step 1) -/

theorem dmaAlloc_none {n : Nat} {rest : List (Option Addr)} (h : s.env.dma = none :: rest) :
    dmaAlloc n s = (none, s.setEnv { s.env with dma := rest }) := by
  simp [dmaAlloc, nextDma, h]

/-- A region has been given for a ring. -/
def dmaGiven (p : Addr) (n : Nat) (rest : List (Option Addr)) (s : State) : State :=
  s.setEnv { s.env with dma := rest, live := { base := p, size := n } :: s.env.live }

theorem dmaAlloc_some {n : Nat} {p : Addr} {rest : List (Option Addr)} (hu : s.flags.ringsUp = false)
    (h : s.env.dma = some p :: rest) (hfree : freeAmong s.cfg.ringAlign s.env.live { base := p, size := n } = true) :
    dmaAlloc n s = (some p, dmaGiven p n rest s) := by
  have htaken : takenRegions (s.setEnv { s.env with dma := rest }) = s.env.live := takenRegions_of_no_rings hu
  simp only [dmaAlloc, nextDma, h, htaken, State.setEnv_cfg, hfree, if_true]
  rfl

/-- The environment once rings have been given at these places. -/
def ringsGiven (c : Cfg) (t r q : Addr) (rest : List (Option Addr)) (e : Env) : Env :=
  { e with dma := rest, live := (ringsAt c t r q).reverse ++ e.live }

section
variable {t r q : Addr} {rest : List (Option Addr)} (hu : s.flags.ringsUp = false)
  (hfree : freshRegions s.cfg.ringAlign (ringsAt s.cfg t r q) s.env.live = true)
include hu hfree

theorem allocRegions_given (h : s.env.dma = some t :: some r :: some q :: rest) :
    allocRegions s = (some (t, r, q), s.setEnv (ringsGiven s.cfg t r q rest s.env)) := by
  obtain ⟨ht, hfree⟩ := freshRegions_cons.1 hfree
  obtain ⟨hr, hfree⟩ := freshRegions_cons.1 hfree
  obtain ⟨hq, -⟩ := freshRegions_cons.1 hfree
  let s1 := dmaGiven t (txBytes s.cfg) (some r :: some q :: rest) s
  let s2 := dmaGiven r (rrdBytes s.cfg) (some q :: rest) s1
  have h1 : dmaAlloc (txBytes s.cfg) s = (some t, s1) := dmaAlloc_some hu h ht
  have h2 : dmaAlloc (rrdBytes s.cfg) s1 = (some r, s2) := dmaAlloc_some (s := s1) hu rfl hr
  have h3 : dmaAlloc (rfdBytes s.cfg) s2 = _ := dmaAlloc_some (s := s2) hu rfl hq
  simp only [allocRegions, h1, h2, h3]
  rfl

/-- The second allocation fails: the first region is given back. -/
theorem allocRegions_second_fails (h : s.env.dma = some t :: none :: rest) :
    allocRegions s = (none, (s.setEnv { s.env with dma := rest }).emit (.dmaFree t (txBytes s.cfg))) := by
  obtain ⟨ht, -⟩ := freshRegions_cons.1 hfree
  let s1 := dmaGiven t (txBytes s.cfg) (none :: rest) s
  have h1 : dmaAlloc (txBytes s.cfg) s = (some t, s1) := dmaAlloc_some hu h ht
  have h2 : dmaAlloc (rrdBytes s.cfg) s1 = _ := dmaAlloc_none rfl
  simp only [allocRegions, h1, h2]
  simp [s1, dmaGiven, dmaFree, dropRegion, State.setEnv]

/-- The third allocation fails: the first two regions are given back. -/
theorem allocRegions_third_fails (h : s.env.dma = some t :: some r :: none :: rest) :
    allocRegions s =
      (none, ((s.setEnv { s.env with dma := rest }).emit (.dmaFree t (txBytes s.cfg))).emit (.dmaFree r (rrdBytes s.cfg))) := by
  obtain ⟨ht, hfree⟩ := freshRegions_cons.1 hfree
  obtain ⟨hr, -⟩ := freshRegions_cons.1 hfree
  let s1 := dmaGiven t (txBytes s.cfg) (some r :: none :: rest) s
  let s2 := dmaGiven r (rrdBytes s.cfg) (none :: rest) s1
  have h1 : dmaAlloc (txBytes s.cfg) s = (some t, s1) := dmaAlloc_some hu h ht
  have h2 : dmaAlloc (rrdBytes s.cfg) s1 = (some r, s2) := dmaAlloc_some (s := s1) hu rfl hr
  have h3 : dmaAlloc (rfdBytes s.cfg) s2 = _ := dmaAlloc_none rfl
  have hback := reverse_append_diff [{ base := t, size := txBytes s.cfg }, { base := r, size := rrdBytes s.cfg }] s.env.live
  simp only [List.reverse_cons, List.reverse_nil, List.nil_append, List.cons_append, List.diff_cons, List.diff_nil] at hback
  simp only [allocRegions, h1, h2, h3]
  simp [s1, s2, dmaGiven, dmaFree, dropRegion, State.setEnv, State.emit, hback]

end

/-! ### New buffers (43_buffer_pool.md R230) -/

theorem RxAnswers.congr {t : State} (h : t.cfg = s.cfg) {live : List Region} {bufs : List BufAnswer} :
    RxAnswers t live bufs ↔ RxAnswers s live bufs := by
  simp [RxAnswers, bufRegions, h]

theorem rxAnswers_cons {live : List Region} {b : BufAnswer} {l : List BufAnswer} : RxAnswers s live (b :: l) ↔
    (freeAmong s.cfg.bufAlign live (answerRegion s.cfg.rxBufSize b) = true ∧ b.extra = 0 ∧ b.phys ≠ 0#64) ∧
      RxAnswers s (answerRegion s.cfg.rxBufSize b :: live) l := by
  simp only [RxAnswers, bufRegions, List.map_cons, freshRegions_cons, List.forall_mem_cons]
  tauto

theorem rxAnswers_append {live : List Region} {k l : List BufAnswer} :
    RxAnswers s live (k ++ l) ↔ RxAnswers s live k ∧ RxAnswers s ((bufRegions s k).reverse ++ live) l := by
  induction k generalizing live with
  | nil => simp [RxAnswers, bufRegions, freshRegions]
  | cons b k ih =>
    rw [List.cons_append, rxAnswers_cons, rxAnswers_cons, ih]
    simp [bufRegions, and_assoc]

/-- The buffers these answers give, with identities from `first` on. -/
def givenBufs (size : Nat) : Nat → List BufAnswer → List Buf
  | _, [] => []
  | first, b :: l =>
    { id := first, cap := size + b.extra, phys := b.phys, len := 0, next := none } :: givenBufs size (first + 1) l

@[simp] theorem length_givenBufs (size first : Nat) (bufs : List BufAnswer) : (givenBufs size first bufs).length = bufs.length := by
  induction bufs generalizing first with
  | nil => rfl
  | cons b l ih => simp [givenBufs, ih]

@[simp] theorem map_phys_givenBufs (size first : Nat) (bufs : List BufAnswer) :
    (givenBufs size first bufs).map Buf.phys = bufs.map BufAnswer.phys := by
  induction bufs generalizing first with
  | nil => rfl
  | cons b l ih => simp [givenBufs, ih]

/-- Each buffer stands at the address answered for it. -/
theorem exists_getElem?_givenBufs (size first : Nat) {bufs : List BufAnswer} {a : BufAnswer} {i : Nat} (h : bufs[i]? = some a) :
    ∃ b, (givenBufs size first bufs)[i]? = some b ∧ b.phys = a.phys := by
  have hphys := congrArg (·[i]?) (map_phys_givenBufs size first bufs)
  simpa only [List.getElem?_map, h, Option.map_some, Option.map_eq_some_iff] using hphys

@[simp] theorem map_bufRegion_givenBufs (s : State) (first : Nat) (bufs : List BufAnswer) :
    (givenBufs s.cfg.rxBufSize first bufs).map bufRegion = bufRegions s bufs := by
  induction bufs generalizing first with
  | nil => rfl
  | cons b l ih => simpa [givenBufs, bufRegions, bufRegion, answerRegion] using ih _

theorem fitBuf_of_mem_givenBufs {live : List Region} {bufs : List BufAnswer} {first : Nat} {b : Buf} (h : RxAnswers s live bufs)
    (hb : b ∈ givenBufs s.cfg.rxBufSize first bufs) : FitBuf s.cfg b := by
  induction bufs generalizing first live with
  | nil => cases hb
  | cons a l ih =>
    obtain ⟨⟨hfree, hextra, hphys⟩, hl⟩ := rxAnswers_cons.1 h
    rcases List.mem_cons.1 hb with rfl | hb
    · simp only [freeAmong, Bool.and_eq_true, beq_iff_eq] at hfree
      exact ⟨by simp [hextra], hfree.1.1, hphys⟩
    · exact ih hl hb

/-- The environment once the buffers of these answers have been given. -/
def bufsGiven (s : State) (bufs : List BufAnswer) (rest : List (Option BufAnswer)) : Env :=
  { s.env with
    alloc := rest, live := (bufRegions s bufs).reverse ++ s.env.live, nextBuf := s.env.nextBuf + bufs.length }

/-- `BufAlloc(RX_BUF_SIZE)` gives the first of them. -/
theorem rxBufAlloc_given {b : BufAnswer} {l : List BufAnswer} {rest : List (Option BufAnswer)} (hu : s.flags.ringsUp = false)
    (hanswers : RxAnswers s s.env.live (b :: l)) (halloc : s.env.alloc = some b :: rest) :
    rxBufAlloc s = (some (newBuf s.cfg.rxBufSize b s),
      (s.setMem (fillBuf s.cfg.rxBufSize b s.mem)).setEnv (bufsGiven s [b] rest)) := by
  obtain ⟨⟨hfree, hextra, hphys⟩, -⟩ := rxAnswers_cons.1 hanswers
  have hfits : bufAnswerFits true s.cfg.rxBufSize b s = true := by
    simp [bufAnswerFits, takenRegions_of_no_rings hu, hfree, hextra, hphys]
  rw [rxBufAlloc, bufAlloc_some halloc hfits]
  rfl

/-- Once these buffers have been posted from slot `i` on. -/
def postedState (s : State) (i : Nat) (bufs : List BufAnswer) (rest : List (Option BufAnswer)) : State :=
  ((s.setMem (fillAndPost s.cfg s.rx.rfdPhys i bufs s.mem)).setRx
    { s.rx with mbuf := s.rx.mbuf ++ (givenBufs s.cfg.rxBufSize s.env.nextBuf bufs).map some }).setEnv (bufsGiven s bufs rest)

theorem postedState_nil {rest : List (Option BufAnswer)} (i : Nat) (h : s.env.alloc = rest) : postedState s i [] rest = s := by
  subst h
  simp [postedState, bufsGiven, bufRegions, givenBufs, fillAndPost, State.setMem, State.setRx, State.setEnv]

theorem postedState_cons (s : State) (i : Nat) (b : BufAnswer) (l : List BufAnswer) (rest : List (Option BufAnswer)) :
    postedState (postedState s i [b] (l.map some ++ rest)) (i + 1) l rest = postedState s i (b :: l) rest := by
  simp [postedState, bufsGiven, bufRegions, givenBufs, fillAndPost, State.setMem, State.setRx, State.setEnv, Nat.add_assoc,
    Nat.add_comm 1]

/-- Once these buffers have joined the pool. -/
def sparedState (s : State) (bufs : List BufAnswer) (rest : List (Option BufAnswer)) : State :=
  ((s.setMem (fillBufs s.cfg.rxBufSize bufs s.mem)).setPool
    { s.pool with spare := s.pool.spare ++ givenBufs s.cfg.rxBufSize s.env.nextBuf bufs }).setEnv (bufsGiven s bufs rest)

theorem sparedState_nil {rest : List (Option BufAnswer)} (h : s.env.alloc = rest) : sparedState s [] rest = s := by
  subst h
  simp [sparedState, bufsGiven, bufRegions, givenBufs, fillBufs, State.setMem, State.setPool, State.setEnv]

theorem sparedState_cons (s : State) (b : BufAnswer) (l : List BufAnswer) (rest : List (Option BufAnswer)) :
    sparedState (sparedState s [b] (l.map some ++ rest)) l rest = sparedState s (b :: l) rest := by
  simp [sparedState, bufsGiven, bufRegions, givenBufs, fillBufs, State.setMem, State.setPool, State.setEnv, Nat.add_assoc,
    Nat.add_comm 1]

section
variable {bufs : List BufAnswer} {rest : List (Option BufAnswer)} (hu : s.flags.ringsUp = false)
  (hanswers : RxAnswers s s.env.live bufs) (halloc : s.env.alloc = bufs.map some ++ rest)
include hu hanswers halloc

/-- R145 step 4, as far as the answers go. -/
theorem postBuffers_given (n i : Nat) :
    postBuffers (bufs.length + n) i s = postBuffers n (i + bufs.length) (postedState s i bufs rest) := by
  induction bufs generalizing s i with
  | nil => rw [postedState_nil (rest := rest) i halloc, List.length_nil, Nat.zero_add, Nat.add_zero]
  | cons b l ih =>
    have hl : RxAnswers (postedState s i [b] (l.map some ++ rest)) (answerRegion s.cfg.rxBufSize b :: s.env.live) l :=
      (RxAnswers.congr rfl).2 (rxAnswers_cons.1 hanswers).2
    calc postBuffers ((b :: l).length + n) i s
        = postBuffers (l.length + n + 1) i s := by rw [List.length_cons, Nat.add_right_comm]
      _ = postBuffers (l.length + n) (i + 1) (postedState s i [b] (l.map some ++ rest)) := by
          rw [postBuffers, rxBufAlloc_given hu hanswers halloc]
          rfl
      _ = postBuffers n (i + 1 + l.length) (postedState s i (b :: l) rest) := by
          rw [ih (s := postedState s i [b] _) hu hl rfl, postedState_cons]
      _ = postBuffers n (i + (b :: l).length) (postedState s i (b :: l) rest) := by
          rw [List.length_cons, Nat.add_assoc, Nat.add_comm 1]

/-- R145 step 5, as far as the answers go (43_buffer_pool.md R228). -/
theorem addSpares_given (n : Nat) : addSpares (bufs.length + n) s = addSpares n (sparedState s bufs rest) := by
  induction bufs generalizing s with
  | nil => rw [sparedState_nil (rest := rest) halloc, List.length_nil, Nat.zero_add]
  | cons b l ih =>
    have hl : RxAnswers (sparedState s [b] (l.map some ++ rest)) (answerRegion s.cfg.rxBufSize b :: s.env.live) l :=
      (RxAnswers.congr rfl).2 (rxAnswers_cons.1 hanswers).2
    calc addSpares ((b :: l).length + n) s
        = addSpares (l.length + n + 1) s := by rw [List.length_cons, Nat.add_right_comm]
      _ = addSpares (l.length + n) (sparedState s [b] (l.map some ++ rest)) := by
          rw [addSpares, rxBufAlloc_given hu hanswers halloc]
          rfl
      _ = addSpares n (sparedState s (b :: l) rest) := by
          rw [ih (s := sparedState s [b] _) hu hl rfl, sparedState_cons]

end

/-- Every slot has its buffer. -/
theorem postBuffers_all {bufs : List BufAnswer} {rest : List (Option BufAnswer)} (hu : s.flags.ringsUp = false)
    (hanswers : RxAnswers s s.env.live bufs) (halloc : s.env.alloc = bufs.map some ++ rest) :
    postBuffers bufs.length 0 s = (true, postedState s 0 bufs rest) :=
  postBuffers_given hu hanswers halloc 0 0

/-- A slot is left without a buffer. -/
theorem postBuffers_short {bufs : List BufAnswer} {rest : List (Option BufAnswer)} {n : Nat} (hu : s.flags.ringsUp = false)
    (hanswers : RxAnswers s s.env.live bufs) (halloc : s.env.alloc = bufs.map some ++ none :: rest) (hn : bufs.length < n) :
    postBuffers n 0 s = (false, postedState s 0 bufs rest) := by
  obtain ⟨k, rfl⟩ := Nat.exists_eq_add_of_lt hn
  rw [Nat.add_assoc, postBuffers_given hu hanswers halloc, postBuffers, rxBufAlloc, bufAlloc_none rfl]
  rfl

/-- The pool is filled, or as far as the allocator gives: that a spare is missing changes nothing else. -/
theorem addSpares_all {bufs : List BufAnswer} {rest : List (Option BufAnswer)} {n : Nat} (hu : s.flags.ringsUp = false)
    (hanswers : RxAnswers s s.env.live bufs)
    (halloc : bufs.length = n ∧ s.env.alloc = bufs.map some ++ rest ∨
      bufs.length < n ∧ s.env.alloc = bufs.map some ++ none :: rest) : addSpares n s = sparedState s bufs rest := by
  obtain ⟨rfl, halloc⟩ | ⟨hn, halloc⟩ := halloc
  · exact addSpares_given hu hanswers halloc 0
  · obtain ⟨k, rfl⟩ := Nat.exists_eq_add_of_lt hn
    rw [Nat.add_assoc, addSpares_given hu hanswers halloc, addSpares, rxBufAlloc, bufAlloc_none rfl]
    rfl

end Sys2Proof.Machine
end

section
/-! SUPPORT. O31, O32: `RING.SETUP` in full (40_rings.md R145): built, or unwound. -/

namespace Sys2Proof.Machine

variable {s : State}

theorem exec_ringSetup (he : s.flags.enabled = false) (hu : s.flags.ringsUp = false) :
    exec .ringSetup s = .next (ringSetup s) := by
  change execRingSetup s = _
  rw [execRingSetup, if_neg (by simp [he, hu])]

/-! ### The rings in place (steps 1 to 3) -/

/-- Rings at these places, with no posted buffer yet. -/
def withRings (t r q : Addr) (s : State) : State :=
  (s.setTx { s.tx with ringPhys := t }).setRx { s.rx with rrdPhys := r, rfdPhys := q, mbuf := [] }

/-- The rings given and placed: steps 1 to 3. -/
def placedRings (s : State) (t r q : Addr) (rest : List (Option Addr)) : State :=
  { s with
    tx := emptyTx s.cfg { s.tx with ringPhys := t }, rx := { s.rx with rrdPhys := r, rfdPhys := q, mbuf := [] },
    mem := zeroedRings (withRings t r q s), late := held (ringSlots s.cfg t r q) s,
    env := ringsGiven s.cfg t r q rest s.env }

theorem placeRings_eq (t r q : Addr) (rest : List (Option Addr)) :
    placeRings t r q (s.setEnv (ringsGiven s.cfg t r q rest s.env)) = placedRings s t r q rest := rfl

/-! ### Host memory -/

/-- Host memory once the rings are zeroed, buffers posted, and spares filled. -/
def setupMem (s : State) (t r q : Addr) (posted spares : List BufAnswer) : Memory :=
  fillBufs s.cfg.rxBufSize spares (fillAndPost s.cfg q 0 posted (zeroedRings (withRings t r q s)))

section
variable {t r q : Addr} {posted spares : List BufAnswer} (hv : s.cfg.valid = true) (hm : Memory.wf s.mem = true)
  (hlen : posted.length ≤ s.cfg.nRfd)
include hm

theorem zeroedRings_withRings_wf : Memory.wf (zeroedRings (withRings t r q s)) = true :=
  zeroRange_wf _ _ (zeroRange_wf _ _ (zeroRange_wf _ _ hm))

include hv hlen

/-- Outside the buffers and the free ring stands what stood there when the rings were zeroed. -/
theorem readByte_setupMem_outside {x : Addr} (hx : OutsideBufs s.cfg.rxBufSize (posted ++ spares) x)
    (hring : inRange (rfdRing s.cfg q).base (rfdRing s.cfg q).size x = false) :
    readByte (setupMem s t r q posted spares) x = readByte (zeroedRings (withRings t r q s)) x := by
  have hwf := zeroedRings_withRings_wf (t := t) (r := r) (q := q) hm
  obtain ⟨hposted, hspares⟩ := List.forall_mem_append.1 hx
  rw [setupMem, readByte_fillBufs_outside (fillAndPost_wf _ _ _ _ hwf) hspares,
    readByte_fillAndPost_outside_ring hwf hv (by omega) hposted hring]

/-- A setup stores to its rings and buffers alone. -/
theorem readByte_setupMem_other {x : Addr}
    (hx : ∀ p ∈ setupRegions s t r q (posted ++ spares), inRange p.base p.size x = false) :
    readByte (setupMem s t r q posted spares) x = readByte s.mem x := by
  obtain ⟨hrings, hbufs⟩ := List.forall_mem_append.1 hx
  have hout : OutsideBufs s.cfg.rxBufSize (posted ++ spares) x := fun b hb => hbufs _ (List.mem_map_of_mem hb)
  rw [readByte_setupMem_outside hv hm hlen hout (hrings _ (.tail _ (.tail _ (.head _))))]
  exact readByte_zeroedRings_outside (s := withRings t r q s) hm hrings

variable (hrings : freshRegions s.cfg.ringAlign (ringsAt s.cfg t r q) s.env.live = true)
  (hbufs : RxAnswers s ((ringsAt s.cfg t r q).reverse ++ s.env.live) (posted ++ spares))
include hbufs

omit hv hm hlen in
/-- No buffer stands in a ring. -/
theorem ring_apart_buf {p : Region} (hp : p ∈ ringsAt s.cfg t r q) {b : BufAnswer} (hb : b ∈ posted ++ spares) :
    apart p (answerRegion s.cfg.rxBufSize b) = true := by
  rw [apart_comm]
  exact apart_of_freshRegions hbufs.1 (List.mem_map_of_mem hb) (List.mem_append_left _ (List.mem_reverse.2 hp))

/-- A descriptor ring that is apart from the free ring stays zeroed. -/
theorem setupMem_zero {p : Region} (hp : p ∈ ringsAt s.cfg t r q) (hapart : apart p (rfdRing s.cfg q) = true) :
    ZeroBytes (setupMem s t r q posted spares) p.base p.size := fun x hx => by
  have hout : OutsideBufs s.cfg.rxBufSize (posted ++ spares) x := fun b hb =>
    apart_not_inRange (ring_apart_buf hbufs hp hb) hx
  rw [readByte_setupMem_outside hv hm hlen hout (apart_not_inRange hapart hx)]
  exact zeroedRings_zero (s := withRings t r q s) hm hp x hx

/-- Each free descriptor holds the address of its buffer. -/
theorem load64_setupMem {i : Nat} {b : BufAnswer} (hb : posted[i]? = some b) :
    load64 (setupMem s t r q posted spares) (rfdField s.cfg q i).base = b.phys := by
  have hwf := zeroedRings_withRings_wf (t := t) (r := r) (q := q) hm
  have hi : i < posted.length := (List.getElem?_eq_some_iff.1 hb).1
  have hring {d : BufAnswer} (hd : d ∈ posted ++ spares) : apart (rfdRing s.cfg q) (answerRegion s.cfg.rxBufSize d) = true :=
    ring_apart_buf hbufs (.tail _ (.tail _ (.head _))) hd
  have hspares : load64 (setupMem s t r q posted spares) (rfdField s.cfg q i).base =
      load64 (fillAndPost s.cfg q 0 posted (zeroedRings (withRings t r q s))) (rfdField s.cfg q i).base := by
    refine load64_congr fun x hx => readByte_fillBufs_outside (fillAndPost_wf _ _ _ _ hwf) fun d hd => ?_
    exact apart_not_inRange (hring (List.mem_append_right _ hd)) (inRange_ring_of_rfdField (i := i) hv (by omega) hx)
  have hpost := load64_fillAndPost (i := 0) hwf hv (by omega) (fun d hd => hring (List.mem_append_left _ hd)) hb
  rw [Nat.zero_add] at hpost
  rw [hspares, hpost]

end

/-! ### Built -/

/-- The rings built: column (b) of 10_state.md R54. -/
def builtRings (s : State) (t r q : Addr) (dmaRest : List (Option Addr)) (posted spares : List BufAnswer)
    (allocRest : List (Option BufAnswer)) : State :=
  { s with
    tx := emptyTx s.cfg { s.tx with ringPhys := t }
    rx := { rrdPhys := r, rfdPhys := q, next := 0#16, free := 0#16,
            mbuf := (givenBufs s.cfg.rxBufSize s.env.nextBuf posted).map some }
    pool := { spare := givenBufs s.cfg.rxBufSize (s.env.nextBuf + posted.length) spares, refillPending := false }
    flags := { s.flags with ringsUp := true }
    mac := { s.mac with regs := setupRegs s.cfg s.mac.regs }
    mem := setupMem s t r q posted spares
    late := held (ringSlots s.cfg t r q) s
    env := { s.env with
      dma := dmaRest, alloc := allocRest, live := (setupRegions s t r q (posted ++ spares)).reverse ++ s.env.live,
      nextBuf := s.env.nextBuf + posted.length + spares.length }
    result := .ok }

theorem setupRegions_reverse (s : State) (t r q : Addr) (posted spares : List BufAnswer) :
    (setupRegions s t r q (posted ++ spares)).reverse =
      (bufRegions s spares).reverse ++ ((bufRegions s posted).reverse ++ (ringsAt s.cfg t r q).reverse) := by
  simp [setupRegions, bufRegions]

theorem ringSetup_built {t r q : Addr} {dr : List (Option Addr)} {posted spares : List BufAnswer}
    {ar tail : List (Option BufAnswer)} (hu : s.flags.ringsUp = false)
    (hrings : freshRegions s.cfg.ringAlign (ringsAt s.cfg t r q) s.env.live = true)
    (hdma : s.env.dma = some t :: some r :: some q :: dr)
    (hbufs : RxAnswers s ((ringsAt s.cfg t r q).reverse ++ s.env.live) (posted ++ spares)) (hlen : posted.length = s.cfg.nRfd)
    (halloc : s.env.alloc = posted.map some ++ tail)
    (htail : spares.length = s.cfg.spareCap ∧ tail = spares.map some ++ ar ∨
      spares.length < s.cfg.spareCap ∧ tail = spares.map some ++ none :: ar) :
    ringSetup s = builtRings s t r q dr posted spares ar := by
  obtain ⟨hposted, hspares⟩ := rxAnswers_append.1 hbufs
  let s1 := placedRings s t r q dr
  let s2 := postedState s1 0 posted tail
  let s3 := (clearRxCursors s2).setPool { spare := [], refillPending := false }
  have hpost : postBuffers s.cfg.nRfd 0 s1 = (true, s2) := by
    rw [← hlen]
    exact postBuffers_all (s := s1) hu ((RxAnswers.congr rfl).2 hposted) halloc
  have hpool : populatePool (clearRxCursors s2) = sparedState s3 spares ar :=
    addSpares_all (s := s3) hu ((RxAnswers.congr rfl).2 hspares) htail
  have hsetup : ringSetup s = setupDone s2 := by
    rw [ringSetup, allocRegions_given hu hrings hdma]
    simp only [placeRings_eq, State.setEnv_cfg, s1, hpost]
  rw [hsetup, setupDone, hpool]
  refine State.eq_of_fields (h13 := ?env) rfl rfl rfl rfl rfl rfl rfl rfl rfl rfl rfl rfl rfl rfl rfl rfl rfl rfl rfl rfl rfl
  simp only [builtRings, setupRegions_reverse, List.append_assoc]
  rfl

/-- The rings are column (b) of 10_state.md R54. -/
theorem builtRings_fresh {t r q : Addr} (dr : List (Option Addr)) {posted spares : List BufAnswer}
    (ar : List (Option BufAnswer)) (hv : s.cfg.valid = true) (hm : Memory.wf s.mem = true)
    (hrings : freshRegions s.cfg.ringAlign (ringsAt s.cfg t r q) s.env.live = true)
    (hbufs : RxAnswers s ((ringsAt s.cfg t r q).reverse ++ s.env.live) (posted ++ spares)) (hlen : posted.length = s.cfg.nRfd) :
    FreshRings (builtRings s t r q dr posted spares ar) s s.env.live t r q (posted ++ spares) := by
  obtain ⟨hposted, hspares⟩ := rxAnswers_append.1 hbufs
  have hapart := freshRegions_pairwise hrings
  simp only [ringsAt, List.pairwise_cons, List.mem_cons, List.not_mem_nil, or_false, forall_eq_or_imp, forall_eq] at hapart
  obtain ⟨⟨-, htq⟩, hrq, -⟩ := hapart
  have hzero {p : Region} (hp : p ∈ ringsAt s.cfg t r q) (hpq : apart p (rfdRing s.cfg q) = true) :
      ZeroBytes (setupMem s t r q posted spares) p.base p.size := setupMem_zero hv hm hlen.le hbufs hp hpq
  refine ⟨rfl, rfl, rfl, rfl, rfl, by simp [builtRings, hlen], fun i hi => ?_, ?_, fun b hb => fitBuf_of_mem_givenBufs hspares hb,
    rfl, hzero (.head _) htq, hzero (.tail _ (.head _)) hrq, rfl⟩
  · obtain ⟨a, ha⟩ : ∃ a, posted[i]? = some a := ⟨_, List.getElem?_eq_getElem (hlen ▸ hi)⟩
    obtain ⟨b, hb, hphys⟩ := exists_getElem?_givenBufs s.cfg.rxBufSize s.env.nextBuf ha
    refine ⟨b, by simp [builtRings, hb], fitBuf_of_mem_givenBufs hposted (List.mem_of_getElem? hb), ?_, ?_⟩
    · rw [hphys, List.map_append, List.getElem?_append_left (by rw [List.length_map, hlen]; exact hi), List.getElem?_map, ha]
      rfl
    · rw [hphys]
      exact load64_setupMem hv hm hlen.le hbufs ha
  · rw [← hlen, List.drop_left]
    exact map_phys_givenBufs _ _ _

/-! ### Unwound -/

theorem setupFail_eq (s : State) :
    setupFail s = { s with result := .fail, trace := .raised .cfgSetupFail :: s.trace } := rfl

/-- A setup that gets no region ends there. -/
theorem ringSetup_of_no_region {s1 : State} (h : allocRegions s = (none, s1)) :
    ringSetup s = { s1 with result := .fail, trace := .raised .cfgSetupFail :: s1.trace } := by
  rw [ringSetup, h]
  exact setupFail_eq s1

/-- What unwinding does: every buffer and every region goes back, and the event is raised. -/
def unwindActs (c : Cfg) (t r q : Addr) (bufs : List Buf) : List Act :=
  bufs.map .bufFree ++
    [.dmaFree t (txBytes c), .dmaFree r (rrdBytes c), .dmaFree q (rfdBytes c), .raised .cfgSetupFail]

theorem filter_isBufFree_unwindActs (c : Cfg) (t r q : Addr) (bufs : List Buf) :
    (unwindActs c t r q bufs).filter isBufFree = bufs.map .bufFree := by
  rw [unwindActs, List.filter_append, List.filter_eq_self.2 (by simp [isBufFree])]
  simp [isBufFree]

theorem countActs_unwindActs (c : Cfg) (t r q : Addr) (bufs : List Buf) {u : State}
    (h : u.trace = (unwindActs c t r q bufs).reverse ++ s.trace) :
    countActs isBufFree u = countActs isBufFree s + bufs.length := by
  rw [countActs, h, List.filter_append, List.filter_reverse, filter_isBufFree_unwindActs, List.length_append, List.length_reverse,
    List.length_map, Nat.add_comm, countActs]

theorem unwind_eq (s : State) :
    unwind s = { s with
      tx := { s.tx with mbuf := [] }, rx := { s.rx with mbuf := [] }, flags := { s.flags with ringsUp := false },
      env := { s.env with live := (s.env.live.diff ((tracked s.rx.mbuf).map bufRegion)).diff (ringRegions s) },
      result := .fail,
      trace := (unwindActs s.cfg s.tx.ringPhys s.rx.rrdPhys s.rx.rfdPhys (tracked s.rx.mbuf)).reverse ++ s.trace } := by
  rw [unwind, freeAll_eq, freeRings_eq, unwindActs, List.reverse_append]
  rfl

@[simp] theorem tracked_map_some (l : List Buf) : tracked (l.map some) = l := by simp [tracked]

/-- A setup unwound for want of a buffer. -/
def unwoundRings (s : State) (t r q : Addr) (dmaRest : List (Option Addr)) (bufs : List BufAnswer)
    (allocRest : List (Option BufAnswer)) : State :=
  { s with
    tx := { emptyTx s.cfg { s.tx with ringPhys := t } with mbuf := [] }
    rx := { s.rx with rrdPhys := r, rfdPhys := q, mbuf := [] }
    mem := setupMem s t r q bufs []
    late := held (ringSlots s.cfg t r q) s
    env := { s.env with dma := dmaRest, alloc := allocRest, nextBuf := s.env.nextBuf + bufs.length }
    result := .fail
    trace := (unwindActs s.cfg t r q (givenBufs s.cfg.rxBufSize s.env.nextBuf bufs)).reverse ++ s.trace }

theorem ringSetup_unwound {t r q : Addr} {dr : List (Option Addr)} {bufs : List BufAnswer} {ar : List (Option BufAnswer)}
    (hu : s.flags.ringsUp = false) (hrings : freshRegions s.cfg.ringAlign (ringsAt s.cfg t r q) s.env.live = true)
    (hdma : s.env.dma = some t :: some r :: some q :: dr) (halloc : s.env.alloc = bufs.map some ++ none :: ar)
    (hlen : bufs.length < s.cfg.nRfd) (hbufs : RxAnswers s ((ringsAt s.cfg t r q).reverse ++ s.env.live) bufs) :
    ringSetup s = unwoundRings s t r q dr bufs ar := by
  let s1 := placedRings s t r q dr
  let s2 := postedState s1 0 bufs ar
  have hpost : postBuffers s.cfg.nRfd 0 s1 = (false, s2) :=
    postBuffers_short (s := s1) hu ((RxAnswers.congr rfl).2 hbufs) halloc hlen
  have hsetup : ringSetup s = unwind s2 := by
    rw [ringSetup, allocRegions_given hu hrings hdma]
    simp only [placeRings_eq, State.setEnv_cfg, s1, hpost]
  have hflags : ({ s.flags with ringsUp := false } : Flags) = s.flags := by rw [← hu]
  have htracked : tracked s2.rx.mbuf = givenBufs s.cfg.rxBufSize s.env.nextBuf bufs := tracked_map_some _
  have hlive : (s2.env.live.diff ((tracked s2.rx.mbuf).map bufRegion)).diff (ringRegions s2) = s.env.live := by
    rw [htracked, map_bufRegion_givenBufs]
    change (((bufRegions s bufs).reverse ++ ((ringsAt s.cfg t r q).reverse ++ s.env.live)).diff _).diff (ringsAt s.cfg t r q) = _
    rw [reverse_append_diff, reverse_append_diff]
  rw [hsetup, unwind_eq, hlive, htracked]
  exact State.eq_of_fields rfl rfl rfl rfl hflags rfl rfl rfl rfl rfl rfl rfl rfl rfl rfl rfl rfl rfl rfl rfl rfl rfl

end Sys2Proof.Machine

open Sys2Proof Sys2Proof.Machine

/-- Settles O31: the answers divide into those for the slots and those for the pool, and the setup is what they build. -/
theorem ringSetupBuildsTheRings : Obligations.RingSetupBuildsTheRings := by
  unfold Obligations.RingSetupBuildsTheRings
  rintro s t r q dr bufs ar he hu hv hm ⟨hdma, hlen, halloc, hrings, hbufs⟩
  obtain ⟨posted, spares, rfl, hposted⟩ : ∃ posted spares, bufs = posted ++ spares ∧ posted.length = s.cfg.nRfd :=
    ⟨bufs.take s.cfg.nRfd, bufs.drop s.cfg.nRfd, (List.take_append_drop _ _).symm, by simpa using hlen⟩
  obtain ⟨tail, htail, halloc⟩ : ∃ tail, (spares.length = s.cfg.spareCap ∧ tail = spares.map some ++ ar ∨
      spares.length < s.cfg.spareCap ∧ tail = spares.map some ++ none :: ar) ∧ s.env.alloc = posted.map some ++ tail := by
    simp only [List.length_append, List.map_append, List.append_assoc, hposted, Nat.add_right_inj,
      Nat.add_lt_add_iff_left] at halloc
    obtain ⟨hn, ha⟩ | ⟨hn, ha⟩ := halloc
    · exact ⟨_, .inl ⟨hn, rfl⟩, ha⟩
    · exact ⟨_, .inr ⟨hn, rfl⟩, ha⟩
  refine ⟨_, exec_ringSetup he hu, ?_⟩
  rw [ringSetup_built hu hrings hdma hbufs hposted halloc htail]
  refine ⟨rfl, rfl, builtRings_fresh dr ar hv hm hrings hbufs hposted, fun x hx => ?_, rfl, rfl, rfl, rfl, rfl, rfl, rfl, rfl,
    rfl, rfl, rfl, rfl, rfl, rfl, rfl, rfl⟩
  exact readByte_setupMem_other hv hm hposted.le hx

/-- Settles O32: each allocation that can fail, in order, and what goes back. -/
theorem ringSetupFailureUnwinds : Obligations.RingSetupFailureUnwinds := by
  unfold Obligations.RingSetupFailureUnwinds
  intro s t r q dr bufs ar he hu hrings
  rw [exec_ringSetup he hu]
  refine ⟨fun h => ?_, fun h => ?_, fun h => ?_, fun h halloc hlen hbufs => ?_⟩
  · have hfail : allocRegions s = (none, s.setEnv { s.env with dma := dr }) := by rw [allocRegions, dmaAlloc_none h]
    rw [ringSetup_of_no_region hfail]
    rfl
  · rw [ringSetup_of_no_region (allocRegions_second_fails hu hrings h)]
    rfl
  · rw [ringSetup_of_no_region (allocRegions_third_fails hu hrings h)]
    rfl
  · have hacts : newActs (unwoundRings s t r q dr bufs ar) s =
        unwindActs s.cfg t r q (givenBufs s.cfg.rxBufSize s.env.nextBuf bufs) := newActs_of_trace rfl
    rw [ringSetup_unwound hu hrings h halloc hlen hbufs]
    refine ⟨_, rfl, ?_⟩
    rw [hacts]
    refine ⟨rfl, rfl, rfl, rfl, rfl, ?count, by simp [unwindActs], by simp [unwindActs], by simp [unwindActs],
      by simp [unwindActs], by simp [unwindActs], rfl, rfl, rfl, rfl, rfl, rfl, fun hv hm x hx => ?_, rfl, rfl, rfl,
      rfl, rfl, rfl, rfl, rfl, rfl, rfl⟩
    case count =>
      have hcount : countActs isBufFree (unwoundRings s t r q dr bufs ar) = _ := countActs_unwindActs s.cfg t r q _ rfl
      rwa [length_givenBufs] at hcount
    rw [← List.append_nil bufs] at hx
    exact readByte_setupMem_other hv hm hlen.le hx
end

section
/-! SUPPORT. O10: the command word of a frame under the default layout (30_encoding.md R102, 41_transmit.md R163, R164). -/

namespace Sys2Proof.Machine

/-- A flag of the checksum set is requested when its bit is (30_encoding.md R116). -/
theorem csHas_bit (req : BitVec 5) :
    csHas req csIp4 = req.getLsbD 0 ∧ csHas req csTcp4 = req.getLsbD 1 ∧ csHas req csUdp4 = req.getLsbD 2 ∧
      csHas req csTcp6 = req.getLsbD 3 ∧ csHas req csUdp6 = req.getLsbD 4 := by
  revert req
  decide

theorem word_or_right_comm (v w x : Word) : v ||| w ||| x = v ||| x ||| w := by
  rw [BitVec.or_assoc, BitVec.or_comm w, ← BitVec.or_assoc]

variable {c : Cfg} (hl : c.layout = Layout.default)
include hl

theorem mssField_default (mss : Half) : mssField c mss = (mss.setWidth 32 &&& 0x1FFF#32) <<< 18 := by
  rw [mssField, hl]
  rfl

theorem vlanCmd_default (f : Frame) : vlanCmd c f = if f.vlan.isSome then 0x00008000#32 else 0#32 := by
  rw [vlanCmd, hl]
  cases f.vlan <;> rfl

/-- The rows of the table of R164, each the sum of its flags. -/
theorem csumCmd_default (h4 : c.minL4OffV4 = 34) (h6 : c.minL4OffV6 = 54) (req : BitVec 5) :
    csumCmd c req =
      if req.getLsbD 1 then 0x00010622#32
      else if req.getLsbD 2 then 0x00010A22#32
      else if req.getLsbD 0 then 0x00010222#32
      else if req.getLsbD 3 then 0x00000436#32
      else if req.getLsbD 4 then 0x00000836#32
      else 0#32 := by
  obtain ⟨hip4, htcp4, hudp4, htcp6, hudp6⟩ := csHas_bit req
  simp only [csumCmd, hip4, htcp4, hudp4, htcp6, hudp6, l4offV4, l4offV6, hl, h4, h6]
  rfl

end Sys2Proof.Machine

open Sys2Proof Sys2Proof.Machine

/-- Settles O10: each offload mode's word is the sum of the flags and fields it stands for. -/
theorem commandWordOfAFrame : Obligations.CommandWordOfAFrame := by
  unfold Obligations.CommandWordOfAFrame
  intro c f hl h4 h6
  have hv4 : l4offV4 c = 0x22#32 := by rw [l4offV4, hl, h4]; rfl
  have hv6 : l4offV6 c = 0x36#32 := by rw [l4offV6, hl, h6]; rfl
  refine ⟨fun hm => ?_, fun hm => ?_, fun hm => ?_⟩
  · simp only [frameCmd, offloadCmd, hm, vlanCmd_default hl, mssField_default hl, hv4, hl]
    exact congrArg (· ||| _) (word_or_right_comm _ _ 0x22#32)
  · simp only [frameCmd, offloadCmd, hm, vlanCmd_default hl, mssField_default hl, hv6, hl]
    exact congrArg (· ||| _) (word_or_right_comm _ _ 0x36#32)
  · simp only [frameCmd, offloadCmd, hm, vlanCmd_default hl, csumCmd_default hl h4 h6]
end

section
/-! SUPPORT. O11, O12: the bytes of a frame in host memory (20_memory.md R74), and the TSO header fix-ups (41_transmit.md R169 to
R171). -/

namespace Sys2Proof.Machine

/-! ### The fold (R171) -/

/-- One's-complement subtraction: an end-around borrow where the subtrahend is the greater. -/
theorem fold_eq (c l : Half) : fold c l = if l ≤ c then c - l else c - l - 1#16 := by
  apply BitVec.eq_of_toNat_eq
  have hc := c.isLt
  have hl := l.isLt
  simp only [fold, BitVec.toNat_setWidth, BitVec.toNat_add, BitVec.toNat_sub, BitVec.toNat_ushiftRight, BitVec.le_def,
    Nat.shiftRight_eq_div_pow]
  split
  · rw [BitVec.toNat_sub]
    omega
  · simp only [BitVec.toNat_sub, BitVec.toNat_ofNat]
    omega

/-! ### Halves of a frame in network byte order (20_memory.md R74) -/

/-- A half stored at two bytes, the first the more significant. -/
def writeNet (m : Memory) (hi lo : Addr) (v : Half) : Memory :=
  writeByte (writeByte m hi (v.extractLsb' 8 8)) lo (v.extractLsb' 0 8)

section
variable {m : Memory} {hi lo : Addr}

theorem writeNet_wf (v : Half) (hm : Memory.wf m = true) : Memory.wf (writeNet m hi lo v) = true :=
  writeByte_wf _ _ (writeByte_wf _ _ hm)

theorem readByte_writeNet_other {a : Addr} (v : Half) (hm : Memory.wf m = true) (hhi : a ≠ hi) (hlo : a ≠ lo) :
    readByte (writeNet m hi lo v) a = readByte m a := by
  rw [writeNet, readByte_writeByte _ _ _ (writeByte_wf _ _ hm), if_neg hlo, readByte_writeByte _ _ _ hm, if_neg hhi]

/-- A half stored at two bytes is read back from them. -/
theorem readByte_writeNet_same (v : Half) (hm : Memory.wf m = true) (hne : hi ≠ lo) :
    readByte (writeNet m hi lo v) hi ++ readByte (writeNet m hi lo v) lo = v := by
  rw [writeNet, readByte_writeByte _ hi _ (writeByte_wf _ _ hm), if_neg hne, readByte_writeByte _ hi _ hm, if_pos rfl,
    readByte_writeByte _ lo _ (writeByte_wf _ _ hm), if_pos rfl, BitVec.extractLsb'_append_extractLsb'_eq_extractLsb' (by rfl)]
  exact BitVec.extractLsb'_eq_self

variable {segs : List Seg} {off : Nat} (hhi : frameAddr segs off = some hi) (hlo : frameAddr segs (off + 1) = some lo)
include hhi hlo

theorem netRead16_eq (m : Memory) : netRead16 m segs off = some (readByte m hi ++ readByte m lo) := by
  simp [netRead16, frameByte, hhi, hlo]

theorem netWrite16_eq (m : Memory) (v : Half) : netWrite16 m segs off v = some (writeNet m hi lo v) := by
  simp [netWrite16, hhi, hlo, writeNet]

end

/-- The header length of an IPv4 frame, from the low half of the byte at offset 14. -/
theorem toNat_headerNibble (b : Byte) : (b &&& 0x0F#8).toNat = b.toNat % 16 := by
  rw [BitVec.toNat_and]
  exact Nat.and_two_pow_sub_one_eq_mod b.toNat 4

end Sys2Proof.Machine

open Sys2Proof Sys2Proof.Machine

/-- Settles O11: the fold by its cases, and the fix-up as one half stored at the checksum. -/
theorem tso4FixAdjustsTheChecksum : Obligations.Tso4FixAdjustsTheChecksum := by
  unfold Obligations.Tso4FixAdjustsTheChecksum
  refine ⟨fold_eq, fun m segs b14 tot sum off hi lo hm hb htot hoff hsum hhi hlo hne => ?_⟩
  have hcsum : tso4CsumOff b14 = off := by rw [tso4CsumOff, toNat_headerNibble, hoff]
  refine ⟨writeNet m hi lo (fold sum (tot - BitVec.ofNat 16 (4 * (b14.toNat % 16)))), ?_, ?_, fun a hahi halo => ?_⟩
  · simp only [tso4Fix, hb, htot, hcsum, hsum, toNat_headerNibble, netWrite16_eq hhi hlo]
  · rw [netRead16_eq hhi hlo, readByte_writeNet_same _ hm hne]
  · exact readByte_writeNet_other _ hm hahi halo

/-- Settles O12: the fix-up as two halves stored, one after another, at bytes that do not meet. -/
theorem tso6FixStashesTheLength : Obligations.Tso6FixStashesTheLength := by
  unfold Obligations.Tso6FixStashesTheLength
  intro c m segs plen sum off p q hi lo hm hoff hplen hsum hp hq hhi hlo hnodup
  simp only [List.nodup_cons, List.mem_cons, List.not_mem_nil, or_false, not_or] at hnodup
  obtain ⟨⟨hpq, hphi, hplo⟩, ⟨hqhi, hqlo⟩, hhilo, -⟩ := hnodup
  have hm1 := writeNet_wf (hi := hi) (lo := lo) (fold sum plen) hm
  refine ⟨writeNet (writeNet m hi lo (fold sum plen)) p q 0#16, tso6Total c plen, ?_, rfl, ?_, ?_, ?_, fun a ha => ?_⟩
  · simp only [tso6Fix, ← hoff, hplen, hsum, netWrite16_eq hhi hlo, netWrite16_eq hp hq]
  · exact BitVec.add_sub_cancel _ _
  · rw [netRead16_eq hhi hlo, readByte_writeNet_other _ hm1 (Ne.symm hphi) (Ne.symm hqhi),
      readByte_writeNet_other _ hm1 (Ne.symm hplo) (Ne.symm hqlo), readByte_writeNet_same _ hm hhilo]
  · rw [netRead16_eq hp hq, readByte_writeNet_same _ hm1 hpq]
  · simp only [List.mem_cons, List.not_mem_nil, or_false, not_or] at ha
    obtain ⟨hap, haq, hahi, halo⟩ := ha
    rw [readByte_writeNet_other _ hm1 hap haq, readByte_writeNet_other _ hm hahi halo]
end

section
/-! SUPPORT. An enqueue that no `TX.PULL` delays, one equation per outcome (41_transmit.md R161 to R169), and O13, O14. -/

namespace Sys2Proof.Machine

variable {s : State} {m : TsoMode} {f : Frame}

/-! ### The operations (41_transmit.md R174 to R177) -/

/-- With no `TX.PULL` in progress there is nothing to wait for. -/
theorem finishPull_of_idle (h : s.puller = .idle) : finishPull s = .next s := by
  simp [finishPull, pullFuel, pullRun, pulling, h]

theorem exec_txqOf (m : TsoMode) (s : State) :
    exec (txqOf m) s = andThen (finishPull s) fun t => enqueue m true t.frameArg t := by
  cases m <;> rfl

theorem exec_txqOf_of_idle (m : TsoMode) (h : s.puller = .idle) : exec (txqOf m) s = enqueue m true s.frameArg s := by
  rw [exec_txqOf, finishPull_of_idle h, andThen_next]

/-! ### The outcomes of an enqueue -/

theorem frameProblem_eq_none_iff {c : Cfg} :
    frameProblem c m f = none ↔ f.tsoMode = m ∧ (m = .none ∨ mssInRange c f.mss = true) := by
  unfold frameProblem
  by_cases hmode : f.tsoMode = m
  · by_cases hplain : m = .none
    · simp [hmode, hplain]
    · cases hmss : mssInRange c f.mss <;> simp [hmode, hplain]
  · simp [hmode]

theorem enqueue_of_problem {p : Refusal} (room : Bool) (h : frameProblem s.cfg m f = some p) :
    enqueue m room f s = .refused p := by
  simp only [enqueue, h]

theorem gateOpen_iff : gateOpen s = true ↔ s.flags.enabled = true ∧ s.flags.linkUp = true := by simp [gateOpen]

section
variable (hp : frameProblem s.cfg m f = none)
include hp

/-- R161. -/
theorem enqueue_gate_closed (room : Bool) (hg : gateOpen s = false) :
    enqueue m room f s = .next (dropFrame .txDropGate .droppedGate f s) := by
  simp [enqueue, hp, hg]

variable (hg : gateOpen s = true)
include hg

/-- R166. -/
theorem enqueue_unmapped (room : Bool) (hs : sgMap s f = none ∨ sgMap s f = some []) :
    enqueue m room f s = .next (dropFrame .txResource .droppedResource f s) := by
  obtain hs | hs := hs <;> simp [enqueue, hp, hg, hs]

variable {segs : List Seg} (hs : sgMap s f = some segs) (hne : segs ≠ [])
include hs hne

/-- R168. -/
theorem enqueue_no_room (hroom : lacksRoom (descNeed m segs) s = true) :
    enqueue m true f s = .next (stallFrame f s) := by
  obtain ⟨g, rest, rfl⟩ := List.exists_cons_of_ne_nil hne
  simp [enqueue, hp, hg, hs, hroom]

/-- R167: with the room there is, the slots are reserved. -/
theorem enqueue_room {room : Bool} (hroom : room = true → lacksRoom (descNeed m segs) s = false) :
    enqueue m room f s = enqueueReserved m f segs (addFree (-BitVec.ofNat 32 (descNeed m segs)) s) := by
  obtain ⟨g, rest, rfl⟩ := List.exists_cons_of_ne_nil hne
  cases room <;> simp_all [enqueue]

/-- R169, U7. -/
theorem enqueue_too_short {room : Bool} (hroom : room = true → lacksRoom (descNeed m segs) s = false)
    (ha : aligned8 s.tx.ringPhys = true) (hfix : headerFix s.cfg m s.mem segs = none) :
    enqueue m room f s = .refused .frameTooShort := by
  rw [enqueue_room hp hg hs hne hroom]
  simp [enqueueReserved, addFree, ha, hfix]

/-- R172, R173. -/
theorem enqueue_accepted {room : Bool} (hroom : room = true → lacksRoom (descNeed m segs) s = false)
    (ha : aligned8 s.tx.ringPhys = true) {m1 : Memory} {ctx : Option Word}
    (hfix : headerFix s.cfg m s.mem segs = some (m1, ctx)) :
    enqueue m room f s =
      .next (fillPublish f segs ctx (storeHeader m segs m1 (addFree (-BitVec.ofNat 32 (descNeed m segs)) s))) := by
  rw [enqueue_room hp hg hs hne hroom]
  simp [enqueueReserved, addFree, ha, hfix]

end

end Sys2Proof.Machine

open Sys2Proof Sys2Proof.Machine

/-- Settles O13: the gate stands before the mapping in all three enqueues. -/
theorem gateClosedDropsTheFrame : Obligations.GateClosedDropsTheFrame := by
  unfold Obligations.GateClosedDropsTheFrame
  intro m s hidle hmode hmss hgate
  rw [exec_txqOf_of_idle m hidle, enqueue_gate_closed (frameProblem_eq_none_iff.2 ⟨hmode, hmss⟩) true
    (by simpa only [← gateOpen_iff, Bool.not_eq_true] using hgate)]
  rfl

/-- Settles O14: the drop and the stall as the enqueue's own outcomes. -/
theorem refusedFramesLeaveTheRing : Obligations.RefusedFramesLeaveTheRing := by
  unfold Obligations.RefusedFramesLeaveTheRing
  intro m s hidle hmode hmss he hl
  have hp := frameProblem_eq_none_iff.2 ⟨hmode, hmss⟩
  have hg := gateOpen_iff.2 ⟨he, hl⟩
  rw [exec_txqOf_of_idle m hidle]
  refine ⟨fun hs => ?_, fun segs hs hne hroom => ?_⟩
  · rw [enqueue_unmapped hp hg true hs]
    rfl
  · rw [enqueue_no_room hp hg hs hne (decide_eq_true hroom)]
    rfl
end

section
/-! SUPPORT. O52: what stops a fix-up (41_transmit.md R169, R170) and a receive walk of one completion (42_receive.md R190,
R192). -/

namespace Sys2Proof.Machine

variable {s : State}

/-! ### A frame too short for its fix-up (U7) -/

section
variable {m : Memory} {segs : List Seg} {off : Nat}

theorem netRead16_eq_none (h : frameAddr segs (off + 1) = none) : netRead16 m segs off = none := by
  unfold netRead16
  simp only [frameByte, h]
  split
  · simp_all
  · rfl

theorem tso4Fix_no_length (h : frameAddr segs 17 = none) : tso4Fix m segs = none := by
  simp only [tso4Fix, netRead16_eq_none h]
  cases frameByte m segs 14 <;> rfl

theorem tso4Fix_no_checksum {b14 : Byte} (hb : frameByte m segs 14 = some b14)
    (h : frameAddr segs (14 + 4 * (b14.toNat % 16) + 17) = none) : tso4Fix m segs = none := by
  have hsum : netRead16 m segs (tso4CsumOff b14) = none := netRead16_eq_none (by rw [tso4CsumOff, toNat_headerNibble]; exact h)
  simp only [tso4Fix, hb]
  cases netRead16 m segs 16 with
  | none => rfl
  | some tot => simp only [hsum]

theorem tso6Fix_no_length {c : Cfg} (h : frameAddr segs 19 = none) : tso6Fix c m segs = none := by
  simp only [tso6Fix, netRead16_eq_none h]

theorem tso6Fix_no_checksum {c : Cfg} (h : frameAddr segs (c.minL4OffV6 + 17) = none) : tso6Fix c m segs = none := by
  simp only [tso6Fix, netRead16_eq_none (off := c.minL4OffV6 + 16) h]
  cases netRead16 m segs 18 <;> rfl

end

/-! ### The receive walk -/

theorem drainLoop_not_ready (h : s.env.during = []) (hu : isUpdated s.cfg (rrdFlagWord s) = false) (n : Nat) :
    drainLoop n s = .next s := by
  cases n with
  | zero => rfl
  | succ n => simp [drainLoop, macPoint_of_during_nil h, hu]

/-- One completion is ready: a walk with budget 1 is what becomes of it. -/
theorem exec_rxDrain_one (h : DrainReady s) (hu : isUpdated s.cfg (rrdFlagWord s) = true) :
    exec (.rxDrain 1#24) s = andThen (drainOne (s.setResult (.count 0))) fun t => .next (refillCheck t) := by
  obtain ⟨he, hr, hf, hd, -⟩ := h
  have hu' : isUpdated (s.setResult (.count 0)).cfg (rrdFlagWord (s.setResult (.count 0))) = true := hu
  have hpoint : macPoint (s.setResult (.count 0)) = s.setResult (.count 0) := macPoint_of_during_nil hd
  change drainIfEnabled (some 1) s = _
  simp only [drainIfEnabled, drain, he, hr, hf, drainTurns, drainLoop, hpoint, hu', Bool.and_self, if_true]
  cases drainOne (s.setResult (.count 0)) <;> rfl

theorem exec_rxDrain_one_refused {p : Refusal} (h : DrainReady s) (hu : isUpdated s.cfg (rrdFlagWord s) = true)
    (hone : drainOne (s.setResult (.count 0)) = .refused p) : exec (.rxDrain 1#24) s = .refused p := by
  rw [exec_rxDrain_one h hu, hone]
  rfl

/-- A completion outside the MAC contract (R192). -/
theorem drainOne_of_problem {p : Refusal} (h : contractProblem (rrdCompletion s) s = some p) : drainOne s = .refused p := by
  simp only [drainOne, h]

/-- A completion in the contract that is neither fragmented nor in error, but does not fit its buffers (U5). -/
theorem drainOne_misfit (h : contractProblem (rrdCompletion s) s = none)
    (hj : ¬(1 < (rrdCompletion s).count ∧ s.cfg.jumboSupport = false))
    (he : (rrdCompletion s).err &&& s.cfg.rxDropMask = 0#32) (hf : fits (rrdCompletion s) s.cfg = false) :
    drainOne s = .refused .completionMisfit := by
  have hjudge : judge (rrdCompletion s) s = .refused .completionMisfit := by
    rw [judge, if_neg hj, if_neg (by simp [he]), if_neg (by simp [hf])]
  simp only [drainOne, h, hjudge, andThen]

/-- An unbounded walk against a MAC that never stops (U22). -/
theorem exec_rxDrain_unbounded (he : s.flags.enabled = true) (hr : aligned8 s.rx.rrdPhys = true)
    (hf : aligned8 s.rx.rfdPhys = true) (hd : s.env.during = []) (hc : s.env.ceaseless = true) (hm : s.mac.started = true)
    (hu : isUpdated s.cfg (rrdFlagWord s) = false) : exec (.rxDrain 0xFFFFFF#24) s = .fault .drainUnbounded := by
  have hloop := drainLoop_not_ready (s := s.setResult (.count 0)) hd hu (drainTurns none s)
  have hmore : moreToCome (s.setResult (.count 0)) = true := by simp [moreToCome, hc, hm]
  change drainIfEnabled none s = _
  simp [drainIfEnabled, drain, he, hr, hf, hloop, drainEnd, isInf, hmore]

end Sys2Proof.Machine

open Sys2Proof Sys2Proof.Machine

/-- Settles O52: each operation's own test of the situation. -/
theorem situationsWithoutMeaningStop : Obligations.SituationsWithoutMeaningStop := by
  unfold Obligations.SituationsWithoutMeaningStop
  intro s m
  refine ⟨fun hidle hmode => ?_, fun hidle hmode hplain hmss => ?_,
    fun segs hidle hmode hmss he hl hs hne hroom ha hshort => ?_, fun he hc => ?_,
    fun hd hu => ⟨fun hn => ?_, fun hn hi => ?_, fun hn hi hlen => ?_, fun hp hj herr hf => ?_⟩, fun he hl hv => ?_,
    fun hu hm => ⟨?_, ?_, fun he => ?_⟩, exec_rxDrain_unbounded⟩
  · rw [exec_txqOf_of_idle m hidle]
    exact enqueue_of_problem true (by simp [frameProblem, hmode])
  · rw [exec_txqOf_of_idle m hidle]
    exact enqueue_of_problem true (by simp [frameProblem, hmode, hplain, hmss])
  · rw [exec_txqOf_of_idle m hidle]
    refine enqueue_too_short (frameProblem_eq_none_iff.2 ⟨hmode, .inr hmss⟩) (gateOpen_iff.2 ⟨he, hl⟩) hs hne
      (fun _ => decide_eq_false (not_lt.2 hroom)) ha ?_
    obtain ⟨rfl, h⟩ | ⟨rfl, b14, hb, h⟩ | ⟨rfl, h | h⟩ := hshort
    · simp only [headerFix, tso4Fix_no_length h]
    · simp only [headerFix, tso4Fix_no_checksum hb h]
    · simp only [headerFix, tso6Fix_no_length h]
    · simp only [headerFix, tso6Fix_no_checksum h]
  · change reclaimIfEnabled s = _
    simp [reclaimIfEnabled, reclaim, he, hc]
  · exact exec_rxDrain_one_refused hd hu (drainOne_of_problem (if_pos hn))
  · exact exec_rxDrain_one_refused hd hu (drainOne_of_problem ((if_neg hn).trans (if_pos hi)))
  · exact exec_rxDrain_one_refused hd hu
      (drainOne_of_problem ((if_neg hn).trans ((if_neg (not_not.2 hi)).trans (if_pos hlen))))
  · exact exec_rxDrain_one_refused hd hu (drainOne_misfit hp hj herr hf)
  · change execLinkUp s = _
    simp [execLinkUp, he, hl, hv]
  · change execTxClear s = _
    simp [execTxClear, hu, hm]
  · change execRxReset s = _
    simp [execRxReset, hu, hm]
  · change execRingTeardown s = _
    simp [execRingTeardown, hu, hm, he]
end

section
/-! SUPPORT. O19: the slots a reclaim walks over (41_transmit.md R180), and the wake (R181). -/

namespace Sys2Proof.Machine

/-! ### Slots of a ring (40_rings.md R140) -/

section
variable {e : Nat} (he : e ≤ 16)
include he

/-- As many steps as lie between lead from one slot to the other. -/
theorem inc_dist {a b : Half} (ha : a.toNat < 2 ^ e) (hb : b.toNat < 2 ^ e) : inc a (dist a b (2 ^ e)) (2 ^ e) = b := by
  apply BitVec.eq_of_toNat_eq
  rw [inc_toNat he, dist_eq_ite he ha hb]
  split
  · rw [Nat.add_sub_cancel' (by assumption), Nat.mod_eq_of_lt hb]
  · rw [← Nat.add_assoc, Nat.add_sub_cancel' ha.le, Nat.add_mod_left, Nat.mod_eq_of_lt hb]

/-- Fewer than a whole round of steps lead to different slots. -/
theorem toNat_inc_inj (i : Half) {j k : Nat} (hj : j < 2 ^ e) (hk : k < 2 ^ e) :
    (inc i j (2 ^ e)).toNat = (inc i k (2 ^ e)).toNat ↔ j = k := by
  rw [inc_toNat he, inc_toNat he]
  refine ⟨fun h => ?_, fun h => by rw [h]⟩
  exact (Nat.ModEq.add_left_cancel' i.toNat h).eq_of_lt_of_lt hj hk

end

variable {s : State}

/-! ### One slot -/

theorem set_none_of_getD {α : Type} {l : List (Option α)} {i : Nat} (h : l.getD i none = none) : l.set i none = l := by
  apply List.ext_getElem?
  intro j
  rw [List.getElem?_set]
  split
  · rename_i hij
    subst hij
    split
    · rename_i hlt
      rw [List.getD_eq_getElem _ _ hlt] at h
      rw [List.getElem?_eq_getElem hlt, h]
    · rename_i hge
      rw [List.getElem?_eq_none (by omega)]
  · rfl

/-- A reclaimed slot holds no frame, and the one it held is released as sent. -/
theorem reclaimOne_eq (s : State) :
    reclaimOne s = { s with
      tx := { s.tx with
        dirty := inc s.tx.dirty 1 s.cfg.nTx, doneCount := s.tx.doneCount + 1#32, numFree := s.tx.numFree + 1#32,
        mbuf := s.tx.mbuf.set s.tx.dirty.toNat none },
      trace := ((s.tx.mbuf.getD s.tx.dirty.toNat none).toList.map (Act.release · true)) ++ s.trace } := by
  cases h : s.tx.mbuf.getD s.tx.dirty.toNat none with
  | none =>
    simp only [reclaimOne, h, set_none_of_getD h]
    rfl
  | some f =>
    simp only [reclaimOne, h]
    rfl

/-! ### The walk -/

/-- The slot `j` steps on from the dirty index. -/
def dirtySlot (s : State) (j : Nat) : Nat := (inc s.tx.dirty j s.cfg.nTx).toNat

/-- The tracking array without the frames of the `n` slots from the dirty index on. -/
def clearedSlots (s : State) (n : Nat) : List (Option Frame) :=
  (List.range n).foldl (fun l j => l.set (dirtySlot s j) none) s.tx.mbuf

/-- The frames of these slots, in order. -/
def slotFrames (s : State) (n : Nat) : List Frame :=
  (List.range n).filterMap fun j => s.tx.mbuf.getD (dirtySlot s j) none

/-- `s` with `n` slots reclaimed. -/
def reclaimed (s : State) (n : Nat) : State :=
  { s with
    tx := { s.tx with
      dirty := inc s.tx.dirty n s.cfg.nTx, doneCount := s.tx.doneCount + BitVec.ofNat 32 n,
      numFree := s.tx.numFree + BitVec.ofNat 32 n, mbuf := clearedSlots s n }
    trace := ((slotFrames s n).map (Act.release · true)).reverse ++ s.trace }

theorem clearedSlots_succ (s : State) (n : Nat) :
    clearedSlots s (n + 1) = (clearedSlots s n).set (dirtySlot s n) none := by
  simp [clearedSlots, List.range_succ]

@[simp] theorem length_clearedSlots (s : State) (n : Nat) : (clearedSlots s n).length = s.tx.mbuf.length := by
  induction n with
  | zero => rfl
  | succ n ih => rw [clearedSlots_succ, List.length_set, ih]

theorem getElem?_clearedSlots_other {i n : Nat} (h : ∀ j < n, i ≠ dirtySlot s j) :
    (clearedSlots s n)[i]? = s.tx.mbuf[i]? := by
  induction n with
  | zero => rfl
  | succ n ih =>
    rw [clearedSlots_succ, List.getElem?_set_ne (h n (by omega)).symm, ih fun j hj => h j (by omega)]

theorem getElem?_clearedSlots_at {j n : Nat} (hj : j < n) (hlt : dirtySlot s j < s.tx.mbuf.length) :
    (clearedSlots s n)[dirtySlot s j]? = some none := by
  induction n with
  | zero => omega
  | succ n ih =>
    rw [clearedSlots_succ]
    by_cases hs : dirtySlot s n = dirtySlot s j
    · rw [hs, List.getElem?_set_self (by simpa using hlt)]
    · rw [List.getElem?_set_ne hs]
      rcases Nat.lt_succ_iff_lt_or_eq.1 hj with h | rfl
      · exact ih h
      · exact absurd rfl hs

/-- With no other agent stepping between two slots, the last slot of a walk may be told apart as well as the first. -/
theorem reclaimMany_succ (h : s.env.during = []) (n : Nat) : reclaimMany (n + 1) s = reclaimOne (reclaimMany n s) := by
  induction n generalizing s with
  | zero => exact macPoint_of_during_nil (by simpa using h)
  | succ n ih =>
    have hd : (reclaimOne s).env.during = [] := by simpa using h
    rw [reclaimMany, macPoint_of_during_nil hd, ih hd, reclaimMany, macPoint_of_during_nil hd]

theorem slotFrames_succ (s : State) (n : Nat) :
    slotFrames s (n + 1) = slotFrames s n ++ (s.tx.mbuf.getD (dirtySlot s n) none).toList := by
  rw [slotFrames, List.range_succ, List.filterMap_append]
  rfl

section
variable {e : Nat} (he : e ≤ 16) (hn : s.cfg.nTx = 2 ^ e)
include he hn

theorem reclaimMany_eq (hd : s.env.during = []) (hdirty : s.tx.dirty.toNat < s.cfg.nTx) {n : Nat} (h : n ≤ s.cfg.nTx) :
    reclaimMany n s = reclaimed s n := by
  induction n with
  | zero =>
    have h0 : inc s.tx.dirty 0 s.cfg.nTx = s.tx.dirty := by rw [hn]; exact inc_zero he (hn ▸ hdirty)
    simp [reclaimMany, reclaimed, h0, clearedSlots, slotFrames]
  | succ n ih =>
    have hslot : (clearedSlots s n).getD (dirtySlot s n) none = s.tx.mbuf.getD (dirtySlot s n) none := by
      rw [List.getD_eq_getElem?_getD, List.getD_eq_getElem?_getD, getElem?_clearedSlots_other fun j hj => ?_]
      simp only [dirtySlot, hn, ne_eq]
      rw [toNat_inc_inj he _ (by omega) (by omega)]
      omega
    have hinc : inc (inc s.tx.dirty n s.cfg.nTx) 1 s.cfg.nTx = inc s.tx.dirty (n + 1) s.cfg.nTx := by rw [hn, inc_inc he]
    rw [reclaimMany_succ hd, ih (by omega), reclaimOne_eq]
    refine State.eq_of_fields (h2 := ?tx) (h18 := ?trace) rfl rfl rfl rfl rfl rfl rfl rfl rfl rfl rfl rfl rfl rfl rfl rfl rfl
      rfl rfl rfl
    case tx =>
      simp only [reclaimed, hinc, clearedSlots_succ, dirtySlot, BitVec.add_assoc, BitVec.ofNat_add]
    case trace =>
      have h : (reclaimed s n).tx.mbuf.getD (reclaimed s n).tx.dirty.toNat none = s.tx.mbuf.getD (dirtySlot s n) none := hslot
      rw [h]
      simp only [reclaimed, slotFrames_succ]
      cases s.tx.mbuf.getD (dirtySlot s n) none <;> simp

end

/-! ### The wake (R181) -/

theorem wake_eq (h : s.env.during = []) :
    wake s = { s with
      tx := { s.tx with stalled := s.tx.stalled && !wakeDue s },
      env := { s.env with resumable := s.env.resumable || wakeDue s },
      trace := (if wakeDue s then [.signalResumable] else []) ++ s.trace } := by
  unfold wake
  cases hw : wakeDue s with
  | false => simp
  | true =>
    simp only [if_true, macPoint_of_during_nil h]
    rw [macPoint_of_during_nil (by simpa using h)]
    simp [signalResumable, State.setTx, State.setEnv, State.emit]

/-- A reclaim of `n` slots, with the wake that is due after it. -/
theorem exec_txReclaim {n : Nat} (hd : s.env.during = []) (he : s.flags.enabled = true) (hv : s.cfg.valid = true)
    (hdirty : s.tx.dirty.toNat < s.cfg.nTx) (hin : consumerInside s = true)
    (hn : n = dist s.tx.dirty (hwConsumer s) s.cfg.nTx) :
    exec .txReclaim s = .next ((wake (reclaimed s n)).setResult .returned) := by
  obtain ⟨⟨e, he16, hpow⟩, -⟩ := Cfg.tx_of_valid hv
  have hle : n ≤ s.cfg.nTx := hn ▸ (dist_lt (by omega)).le
  change reclaimIfEnabled s = _
  rw [reclaimIfEnabled, if_pos he, reclaim, if_pos hin, reclaimTo, ← hn, reclaimMany_eq he16 hpow hd hdirty hle]

/-- What a reclaim shows: its releases in slot order, then the signal if there is one. -/
theorem newActs_reclaim (hd : s.env.during = []) (n : Nat) (r : Result) :
    newActs ((wake (reclaimed s n)).setResult r) s = (slotFrames s n).map (Act.release · true) ++
      (if wakeDue (reclaimed s n) then [.signalResumable] else []) := by
  rw [wake_eq (s := reclaimed s n) hd]
  refine newActs_of_trace ?_
  cases wakeDue (reclaimed s n) <;> simp [reclaimed]

theorem hwConsumer_lt (h : 0 < s.cfg.nTx) : (hwConsumer s).toNat < s.cfg.nTx := by
  have hand : (regRead .tpdCidx s).toNat &&& (s.cfg.nTx - 1) ≤ s.cfg.nTx - 1 := Nat.and_le_right
  have hmod := Nat.mod_le ((regRead .tpdCidx s).toNat &&& (s.cfg.nTx - 1)) (2 ^ 16)
  simp only [hwConsumer, BitVec.toNat_ofNat]
  omega

end Sys2Proof.Machine

open Sys2Proof Sys2Proof.Machine

/-- Settles O19: the walk in closed form (`reclaimMany_eq`), then the wake by whether it is due. -/
theorem reclaimReleasesCompletedSlots : Obligations.ReclaimReleasesCompletedSlots := by
  unfold Obligations.ReclaimReleasesCompletedSlots
  intro s n hd he hv hdirty hlen hin hn
  obtain ⟨⟨e, he16, hpow⟩, -⟩ := Cfg.tx_of_valid hv
  have hslot (j : Nat) : dirtySlot s j < s.tx.mbuf.length := hlen ▸ inc_lt (by omega)
  have hdue : wakeDue (reclaimed s n) = true ↔
      s.tx.stalled = true ∧ (s.cfg.nTx / 4 : Nat) < (s.tx.numFree + BitVec.ofNat 32 n).toInt := by
    simp [wakeDue, reclaimed, wakeThreshold]
  have hsent : ((slotFrames s n).map (Act.release · true)).filter isRelease =
      (slotFrames s n).map (Act.release · true) := by simp [isRelease]
  refine ⟨_, exec_txReclaim hd he hv hdirty hin hn, ?_⟩
  rw [newActs_reclaim hd, wake_eq (s := reclaimed s n) hd]
  refine ⟨rfl, ?dirty, rfl, rfl, rfl, rfl, fun j hj => getElem?_clearedSlots_at hj (hslot j),
    fun i hi => getElem?_clearedSlots_other hi, ?released, fun hw => ?woken, fun hw => ?left, rfl, rfl, rfl, rfl, rfl, rfl,
    rfl, rfl, rfl, rfl, rfl, rfl, rfl, rfl, rfl, rfl, rfl, rfl, rfl, rfl, rfl⟩
  case dirty =>
    change inc s.tx.dirty n s.cfg.nTx = hwConsumer s
    rw [hn, hpow, inc_dist he16 (hpow ▸ hdirty) (hpow ▸ hwConsumer_lt (by omega))]
  case released =>
    rw [List.filter_append, hsent]
    cases wakeDue (reclaimed s n) <;> simp [isRelease, slotFrames, dirtySlot]
  case woken =>
    rw [hdue.2 hw]
    simp [reclaimed]
  case left =>
    rw [Bool.eq_false_iff.2 (mt hdue.1 hw)]
    simp [reclaimed]
end

section
/-! SUPPORT. The image of a transmit descriptor in host memory (30_encoding.md R101, 20_memory.md R73): what its stores leave at
its fields, and that they stay inside it. -/

namespace Sys2Proof.Machine

variable {m k : Memory} {a x : Addr}

/-! ### Halves -/

theorem readByte_store16_outside (v : Half) (hm : Memory.wf m = true) (hx : inRange a 2 x = false) :
    readByte (store16 m a v) x = readByte m x := by
  rw [store16_eq_writeBytes]
  exact readByte_writeBytes_outside hm (by simpa using hx)

/-- A half reads alike in memories that agree in its two bytes. -/
theorem load16_congr (h : ∀ x, inRange a 2 x = true → readByte m x = readByte k x) : load16 m a = load16 k a := by
  have h0 := h (a + BitVec.ofNat 64 0) (inRange_add a (by omega) (by omega))
  have h1 := h (a + BitVec.ofNat 64 1) (inRange_add a (by omega) (by omega))
  rw [BitVec.add_zero] at h0
  rw [load16, load16, h0, h1]

theorem load16_store16 (a : Addr) (v : Half) (hm : Memory.wf m = true) : load16 (store16 m a v) a = v := by
  have hne : a + 1#64 ≠ a := by simp
  rw [load16, store16, readByte_writeByte _ _ _ (writeByte_wf _ _ hm), if_pos rfl,
    readByte_writeByte _ _ _ (writeByte_wf _ _ hm), if_neg hne.symm, readByte_writeByte _ _ _ hm, if_pos rfl,
    BitVec.extractLsb'_append_extractLsb'_eq_extractLsb' (by rfl)]
  exact BitVec.extractLsb'_eq_self

/-! ### The fields of a transmit descriptor -/

/-- The byte fields at two offsets share no byte. -/
def FieldsApart (i p j q : Nat) : Prop := i + p ≤ j ∨ j + q ≤ i

/-- The fields of a transmit descriptor lie inside it and share no byte (30_encoding.md R101; log entry 3). -/
structure TpdFits (l : Layout) : Prop where
  size : l.tpdSize ≤ 2 ^ 64
  len : l.tpdLen + 2 ≤ l.tpdSize
  vlan : l.tpdVlan + 2 ≤ l.tpdSize
  cmd : l.tpdCmd + 4 ≤ l.tpdSize
  addr : l.tpdAddr + 8 ≤ l.tpdSize
  len_vlan : FieldsApart l.tpdLen 2 l.tpdVlan 2
  len_cmd : FieldsApart l.tpdLen 2 l.tpdCmd 4
  len_addr : FieldsApart l.tpdLen 2 l.tpdAddr 8
  vlan_cmd : FieldsApart l.tpdVlan 2 l.tpdCmd 4
  vlan_addr : FieldsApart l.tpdVlan 2 l.tpdAddr 8
  cmd_addr : FieldsApart l.tpdCmd 4 l.tpdAddr 8

theorem Cfg.tpdFits_of_valid {c : Cfg} (h : c.valid = true) : TpdFits c.layout := by
  obtain ⟨⟨e, -, hpow⟩, -⟩ := Cfg.tx_of_valid h
  obtain ⟨⟨-, hring⟩, -⟩ := Cfg.ringBytes_of_valid h
  have hpos : 0 < c.nTx := by rw [hpow]; positivity
  have hfit : bytesFit c.layout.tpdSize
      [(c.layout.tpdLen, 2), (c.layout.tpdVlan, 2), (c.layout.tpdCmd, 4), (c.layout.tpdAddr, 8)] = true := by
    simp only [Cfg.valid, Cfg.layoutValid, Layout.placesValid, Bool.and_eq_true] at h
    tauto
  simp only [bytesFit, Bool.and_eq_true, decide_eq_true_eq, List.all_cons, List.pairwise_cons, List.mem_cons,
    List.not_mem_nil, or_false, forall_eq_or_imp, forall_eq] at hfit
  obtain ⟨⟨-, ⟨hlen, -⟩, ⟨hvlan, -⟩, ⟨hcmd, -⟩, ⟨haddr, -⟩, -⟩, ⟨hlv, hlc, hla⟩, ⟨hvc, hva⟩, hca, -⟩ := hfit
  have hsize : c.layout.tpdSize ≤ c.layout.tpdSize * c.nTx := Nat.le_mul_of_pos_right _ hpos
  exact ⟨hsize.trans hring, hlen, hvlan, hcmd, haddr, hlv, hlc, hla, hvc, hva, hca⟩

/-! ### The image -/

theorem inRange_of_field {i p size : Nat} (hi : i + p ≤ size) (hs : size ≤ 2 ^ 64) (hx : inRange (fieldAddr a i) p x = true) :
    inRange a size x = true := by
  simp only [inRange, fieldAddr, decide_eq_true_eq, BitVec.toNat_sub, BitVec.toNat_add, BitVec.toNat_ofNat] at *
  have := x.isLt
  have := a.isLt
  omega

theorem not_inRange_field {i p size : Nat} (hi : i + p ≤ size) (hs : size ≤ 2 ^ 64) (hx : inRange a size x = false) :
    inRange (fieldAddr a i) p x = false := by
  by_contra h
  simp [inRange_of_field hi hs (Bool.eq_true_of_not_eq_false h)] at hx

theorem inRange_other_field {i p j q size : Nat} (hi : i + p ≤ size) (hj : j + q ≤ size) (hs : size ≤ 2 ^ 64)
    (h : FieldsApart i p j q) (hx : inRange (fieldAddr a i) p x = true) : inRange (fieldAddr a j) q x = false := by
  simp only [FieldsApart, inRange, fieldAddr, decide_eq_true_eq, decide_eq_false_iff_not, BitVec.toNat_sub,
    BitVec.toNat_add, BitVec.toNat_ofNat] at *
  have := x.isLt
  have := a.isLt
  omega

section
variable {l : Layout} (hl : TpdFits l)
include hl

/-- A descriptor written changes no byte outside it. -/
theorem readByte_writeData_outside (len vt : Half) (cmd : Word) (addr : Addr) (hm : Memory.wf m = true)
    (hx : inRange a l.tpdSize x = false) : readByte (writeData l m a len vt cmd addr) x = readByte m x := by
  have hwlen := store16_wf (fieldAddr a l.tpdLen) len hm
  have hwvlan := store16_wf (fieldAddr a l.tpdVlan) vt hwlen
  rw [writeData, writeTpdHead, readByte_store64_outside _ (store32_wf _ _ hwvlan) (not_inRange_field hl.addr hl.size hx),
    readByte_store32_outside _ hwvlan (not_inRange_field hl.cmd hl.size hx),
    readByte_store16_outside _ hwlen (not_inRange_field hl.vlan hl.size hx),
    readByte_store16_outside _ hm (not_inRange_field hl.len hl.size hx)]

/-- The image of a descriptor is read alike in memories that agree in its bytes. -/
theorem HoldsDescriptor.congr {vt : Half} {d : Descriptor}
    (h : ∀ x, inRange a l.tpdSize x = true → readByte m x = readByte k x) (hd : HoldsDescriptor l k a vt d) :
    HoldsDescriptor l m a vt d := by
  obtain ⟨hlen, hvlan, hcmd, haddr⟩ := hd
  exact ⟨(load16_congr fun x hx => h x (inRange_of_field hl.len hl.size hx)).trans hlen,
    (load16_congr fun x hx => h x (inRange_of_field hl.vlan hl.size hx)).trans hvlan,
    (load32_congr fun x hx => h x (inRange_of_field hl.cmd hl.size hx)).trans hcmd,
    (load64_congr fun x hx => h x (inRange_of_field hl.addr hl.size hx)).trans haddr⟩

/-- A descriptor written is there. -/
theorem holdsDescriptor_writeData (vt : Half) (d : Descriptor) (hm : Memory.wf m = true) :
    HoldsDescriptor l (writeData l m a d.len vt d.cmd d.addr) a vt d := by
  have hwlen := store16_wf (fieldAddr a l.tpdLen) d.len hm
  have hwvlan := store16_wf (fieldAddr a l.tpdVlan) vt hwlen
  have hwcmd := store32_wf (fieldAddr a l.tpdCmd) d.cmd hwvlan
  refine ⟨?_, ?_, ?_, load64_store64 _ _ hwcmd⟩
  · refine (load16_congr fun x hx => ?_).trans (load16_store16 _ d.len hm)
    rw [writeData, writeTpdHead,
      readByte_store64_outside _ hwcmd (inRange_other_field hl.len hl.addr hl.size hl.len_addr hx),
      readByte_store32_outside _ hwvlan (inRange_other_field hl.len hl.cmd hl.size hl.len_cmd hx),
      readByte_store16_outside _ hwlen (inRange_other_field hl.len hl.vlan hl.size hl.len_vlan hx)]
  · refine (load16_congr fun x hx => ?_).trans (load16_store16 _ vt hwlen)
    rw [writeData, writeTpdHead,
      readByte_store64_outside _ hwcmd (inRange_other_field hl.vlan hl.addr hl.size hl.vlan_addr hx),
      readByte_store32_outside _ hwvlan (inRange_other_field hl.vlan hl.cmd hl.size hl.vlan_cmd hx)]
  · refine (load32_congr fun x hx => ?_).trans (load32_store32 _ d.cmd hwvlan)
    rw [writeData, writeTpdHead,
      readByte_store64_outside _ hwcmd (inRange_other_field hl.cmd hl.addr hl.size hl.cmd_addr hx)]

end

/-- A context descriptor is a descriptor of length 0, its address field the total (30_encoding.md R104). -/
theorem writeContext_eq (l : Layout) (m : Memory) (a : Addr) (vt : Half) (cmd total : Word) :
    writeContext l m a vt cmd total = writeData l m a 0#16 vt cmd (total.setWidth 64) := by
  have hlow : (total.setWidth 64).extractLsb' 0 32 = total := by
    ext i hi
    simp [hi, show i < 64 by omega]
  have hhigh : (total.setWidth 64).extractLsb' 32 32 = 0#32 := by
    ext i hi
    simp
  have hoff : fieldAddr a (l.tpdAddr + 4) = fieldAddr a l.tpdAddr + 4#64 := by
    rw [fieldAddr, fieldAddr, BitVec.add_assoc, BitVec.ofNat_add]
  rw [writeContext, writeData, store64, hlow, hhigh, hoff]

end Sys2Proof.Machine
end

section
/-! SUPPORT. The descriptors of a frame at consecutive slots (41_transmit.md R172): memory and the tracking array after them. -/

namespace Sys2Proof.Machine

/-! ### A run of descriptors -/

/-- Host memory with descriptors stored at the slots from `i` on. -/
def storeSlots (c : Cfg) (base : Addr) (vt : Half) : List Descriptor → Half → Memory → Memory
  | [], _, m => m
  | d :: ds, i, m =>
    storeSlots c base vt ds (inc i 1 c.nTx) (writeData c.layout m (tpdSlotAddr c base i) d.len vt d.cmd d.addr)

/-- The tracking array with the owners of descriptors entered at the slots from `i` on. -/
def trackSlots (n : Nat) : List Descriptor → Half → List (Option Frame) → List (Option Frame)
  | [], _, l => l
  | d :: ds, i, l => trackSlots n ds (inc i 1 n) (l.set i.toNat d.owner)

/-- `s` with descriptors put into the slots from `i` on. -/
def putSlots (vt : Half) (ds : List Descriptor) (i : Half) (s : State) : State :=
  { s with
    mem := storeSlots s.cfg s.tx.ringPhys vt ds i s.mem,
    tx := { s.tx with mbuf := trackSlots s.cfg.nTx ds i s.tx.mbuf } }

theorem storeSlots_wf (c : Cfg) (base : Addr) (vt : Half) (ds : List Descriptor) (i : Half) {m : Memory}
    (hm : Memory.wf m = true) : Memory.wf (storeSlots c base vt ds i m) = true := by
  induction ds generalizing i m with
  | nil => exact hm
  | cons d ds ih => exact ih _ (writeData_wf _ _ _ _ _ _ hm)

/-- The address of the slot `j` steps on. -/
def stepSlot (c : Cfg) (base : Addr) (i : Half) (j : Nat) : Addr := tpdSlotAddr c base (inc i j c.nTx)

section
variable {c : Cfg} (hv : c.valid = true)
include hv

/-- Steps taken one after another are steps taken together. -/
theorem inc_add (i : Half) (j k : Nat) :
    inc (inc i j c.nTx) k c.nTx = inc i (j + k) c.nTx := by
  obtain ⟨⟨e, he, hpow⟩, -⟩ := Cfg.tx_of_valid hv
  rw [hpow, inc_inc he]

theorem inc_succ (i : Half) (j : Nat) : inc (inc i 1 c.nTx) j c.nTx = inc i (j + 1) c.nTx := by
  rw [inc_add hv, Nat.add_comm]

theorem inc_first {i : Half} (hi : i.toNat < c.nTx) : inc i 0 c.nTx = i := by
  obtain ⟨⟨e, he, hpow⟩, -⟩ := Cfg.tx_of_valid hv
  rw [hpow] at hi ⊢
  exact inc_zero he hi

theorem inc_inj {i : Half} {j k : Nat} (hj : j < c.nTx) (hk : k < c.nTx) :
    (inc i j c.nTx).toNat = (inc i k c.nTx).toNat ↔ j = k := by
  obtain ⟨⟨e, he, hpow⟩, -⟩ := Cfg.tx_of_valid hv
  rw [hpow] at hj hk ⊢
  exact toNat_inc_inj he i hj hk

theorem inc_inside (i : Half) (j : Nat) : (inc i j c.nTx).toNat < c.nTx := by
  obtain ⟨-, -, hroom, -⟩ := Cfg.tx_of_valid hv
  exact inc_lt (by omega)

/-- Slots fewer than a whole round of steps apart share no byte. -/
theorem stepSlot_disjoint (base : Addr) (i : Half) {j k : Nat} {x : Addr} (hj : j < c.nTx) (hk : k < c.nTx) (hjk : j ≠ k)
    (hx : inRange (stepSlot c base i j) c.layout.tpdSize x = true) :
    inRange (stepSlot c base i k) c.layout.tpdSize x = false := by
  obtain ⟨⟨hn, hsize⟩, -⟩ := Cfg.ringBytes_of_valid hv
  have hslot (j : Nat) : stepSlot c base i j = (ringSlot base c.layout.tpdSize (inc i j c.nTx).toNat).base := by
    simp [stepSlot, tpdSlotAddr, ringSlot]
  rw [hslot] at hx ⊢
  exact ringSlot_disjoint hn hsize (inc_inside hv i j) (inc_inside hv i k) (mt (inc_inj hv hj hk).1 hjk) hx

theorem inRange_ring_of_stepSlot (base : Addr) (i : Half) {j : Nat} {x : Addr}
    (hx : inRange (stepSlot c base i j) c.layout.tpdSize x = true) : inRange base (txBytes c) x = true := by
  obtain ⟨⟨hn, hsize⟩, -⟩ := Cfg.ringBytes_of_valid hv
  refine inRange_ring_of_slot hn hsize (inc_inside hv i j) ?_
  simpa [stepSlot, tpdSlotAddr, ringSlot] using hx

variable {base : Addr} {vt : Half}

theorem readByte_storeSlots_outside {ds : List Descriptor} {i : Half} {m : Memory} {x : Addr} (hi : i.toNat < c.nTx)
    (hm : Memory.wf m = true) (hx : ∀ j < ds.length, inRange (stepSlot c base i j) c.layout.tpdSize x = false) :
    readByte (storeSlots c base vt ds i m) x = readByte m x := by
  induction ds generalizing i m with
  | nil => rfl
  | cons d ds ih =>
    have h0 := hx 0 (by simp)
    rw [stepSlot, inc_first hv hi] at h0
    rw [storeSlots, ih (inc_inside hv i 1) (writeData_wf _ _ _ _ _ _ hm) fun j hj => ?_,
      readByte_writeData_outside (Cfg.tpdFits_of_valid hv) _ _ _ _ hm h0]
    rw [stepSlot, inc_succ hv]
    exact hx (j + 1) (by simpa using hj)

/-- Each descriptor of a run that fits the ring stands at its slot. -/
theorem holdsDescriptor_storeSlots {ds : List Descriptor} {i : Half} {m : Memory} {j : Nat} {d : Descriptor}
    (hi : i.toNat < c.nTx) (hm : Memory.wf m = true) (hlen : ds.length ≤ c.nTx) (hd : ds[j]? = some d) :
    HoldsDescriptor c.layout (storeSlots c base vt ds i m) (stepSlot c base i j) vt d := by
  induction ds generalizing i m j with
  | nil => cases hd
  | cons b ds ih =>
    have hlen' : ds.length + 1 ≤ c.nTx := hlen
    have hw := writeData_wf c.layout (tpdSlotAddr c base i) b.len vt b.cmd b.addr hm
    rw [storeSlots]
    cases j with
    | zero =>
      obtain rfl : b = d := by simpa using hd
      rw [stepSlot, inc_first hv hi]
      refine (holdsDescriptor_writeData (Cfg.tpdFits_of_valid hv) vt b hm).congr (Cfg.tpdFits_of_valid hv) fun x hx => ?_
      refine readByte_storeSlots_outside hv (inc_inside hv i 1) hw fun j hj => ?_
      rw [stepSlot, inc_succ hv]
      refine stepSlot_disjoint hv base i (j := 0) (by omega) (by omega) (by omega) ?_
      rwa [stepSlot, inc_first hv hi]
    | succ j =>
      have h := ih (j := j) (inc_inside hv i 1) hw (by omega) (by simpa using hd)
      rwa [stepSlot, inc_succ hv] at h

end

@[simp] theorem length_trackSlots (n : Nat) (ds : List Descriptor) (i : Half) (l : List (Option Frame)) :
    (trackSlots n ds i l).length = l.length := by
  induction ds generalizing i l with
  | nil => rfl
  | cons d ds ih => rw [trackSlots, ih, List.length_set]

section
variable {c : Cfg} (hv : c.valid = true)
include hv

theorem getElem?_trackSlots_other {ds : List Descriptor} {i : Half} {l : List (Option Frame)} {k : Nat} (hi : i.toNat < c.nTx)
    (hk : ∀ j < ds.length, k ≠ (inc i j c.nTx).toNat) : (trackSlots c.nTx ds i l)[k]? = l[k]? := by
  induction ds generalizing i l with
  | nil => rfl
  | cons d ds ih =>
    have h0 := hk 0 (by simp)
    rw [inc_first hv hi] at h0
    rw [trackSlots, ih (inc_inside hv i 1) fun j hj => ?_, List.getElem?_set_ne h0.symm]
    rw [inc_succ hv]
    exact hk (j + 1) (by simpa using hj)

/-- Each slot of a run that fits the ring tracks its owner. -/
theorem getElem?_trackSlots_at {ds : List Descriptor} {i : Half} {l : List (Option Frame)} {j : Nat} {d : Descriptor}
    (hi : i.toNat < c.nTx) (hl : l.length = c.nTx) (hlen : ds.length ≤ c.nTx) (hd : ds[j]? = some d) :
    (trackSlots c.nTx ds i l)[(inc i j c.nTx).toNat]? = some d.owner := by
  induction ds generalizing i l j with
  | nil => cases hd
  | cons b ds ih =>
    have hlen' : ds.length + 1 ≤ c.nTx := hlen
    rw [trackSlots]
    cases j with
    | zero =>
      obtain rfl : b = d := by simpa using hd
      rw [getElem?_trackSlots_other hv (inc_inside hv i 1) fun j hj => ?_, inc_first hv hi,
        List.getElem?_set_self (hl ▸ hi)]
      rw [inc_succ hv, ne_eq, inc_inj hv (by omega) (by omega)]
      omega
    | succ j =>
      have h := ih (j := j) (l := l.set i.toNat b.owner) (inc_inside hv i 1) (by simpa using hl) (by omega)
        (by simpa using hd)
      rwa [inc_succ hv] at h

end

/-! ### Fill and publish as one run (R172, R173) -/

theorem length_dataDescriptors (c : Cfg) (f : Frame) (cmd : Word) (segs : List Seg) :
    (dataDescriptors c f cmd segs).length = segs.length := by
  induction segs with
  | nil => rfl
  | cons g rest ih =>
    cases rest with
    | nil => rfl
    | cons h rest => simp only [dataDescriptors, List.length_cons, ih]

theorem length_frameDescriptors (c : Cfg) (f : Frame) (segs : List Seg) (total : Option Word) :
    (frameDescriptors c f segs total).length = segs.length + (if total.isSome then 1 else 0) := by
  cases total <;> simp [frameDescriptors, length_dataDescriptors]

theorem putSlots_cons (vt : Half) (d : Descriptor) (ds : List Descriptor) (i : Half) (s : State) :
    putSlots vt (d :: ds) i s = putSlots vt ds (inc i 1 s.cfg.nTx) (setTxMbuf i d.owner
      (s.setMem (writeData s.cfg.layout s.mem (tpdSlotAddr s.cfg s.tx.ringPhys i) d.len vt d.cmd d.addr))) := by
  simp only [putSlots, storeSlots, trackSlots, setTxMbuf, State.setMem, State.setTx]

theorem putSlots_nil (vt : Half) (i : Half) (s : State) : putSlots vt [] i s = s := by
  simp only [putSlots, storeSlots, trackSlots]

theorem fillData_eq (f : Frame) (vt : Half) (cmd : Word) (segs : List Seg) (i : Half) (s : State) :
    (fillData f vt cmd segs i s).2 = putSlots vt (dataDescriptors s.cfg f cmd segs) i s := by
  induction segs generalizing i s with
  | nil => rw [fillData, dataDescriptors, putSlots_nil]
  | cons g rest ih =>
    rw [fillData, ih]
    cases rest with
    | nil =>
      rw [dataDescriptors, dataDescriptors, putSlots_cons, putSlots_nil, putSlots_nil]
      simp [fillOne, eopFlag]
    | cons h rest =>
      rw [dataDescriptors, putSlots_cons]
      simp [fillOne, eopFlag]

/-- The descriptors of a frame are put into the slots from the producer index on, and the index moves over them. -/
theorem fill_eq {s : State} (hv : s.cfg.valid = true) (hi : s.tx.next.toNat < s.cfg.nTx) (f : Frame) (segs : List Seg)
    (vt : Half) (ctx : Option Word) :
    fill f segs (frameCmd s.cfg f) vt ctx s =
      (inc s.tx.next (frameDescriptors s.cfg f segs ctx).length s.cfg.nTx,
        putSlots vt (frameDescriptors s.cfg f segs ctx) s.tx.next s) := by
  obtain ⟨⟨e, he, hpow⟩, -⟩ := Cfg.tx_of_valid hv
  cases ctx with
  | none =>
    refine Prod.ext ?_ (fillData_eq f vt _ segs _ s)
    rw [fill, fillData_slot he f vt _ segs hpow (hpow ▸ hi), length_frameDescriptors]
    rfl
  | some total =>
    refine Prod.ext ?_ ?_
    · rw [fill, length_frameDescriptors, fillData_slot he f vt _ segs (by simpa using hpow) (hpow ▸ inc_inside hv _ _)]
      simpa using inc_succ hv s.tx.next segs.length
    · rw [fill, fillData_eq, frameDescriptors, putSlots_cons, fillContext, writeContext_eq]
      simp

end Sys2Proof.Machine
end

section
/-! SUPPORT. O15: an accepted frame is published (41_transmit.md R169 to R176). -/

namespace Sys2Proof.Machine

variable {s : State} {m : TsoMode} {f : Frame} {segs : List Seg} {m1 : Memory} {ctx : Option Word}

/-- The index, the fence and the doorbell (R173). -/
theorem publish_eq (i : Half) (s : State) :
    publish i s = { s with
      tx := { s.tx with next := i }, late := lateAfterBell s (fenced s.posted.length s.late), posted := postedAfter .tx s,
      mac := { s.mac with regs := { s.mac.regs with tpdPidx := i } }, result := .sent,
      trace := .regWrite s.cfg.regmap.tpdPidx.offset s.cfg.regmap.tpdPidx.width (i.setWidth 32) :: .fence :: s.trace } := by
  have hi : (i.setWidth 32).setWidth 16 = i := by simp
  simp only [publish, regWrite, regStore, hi]
  rfl

/-- Fill and publish: the descriptors in their slots, then the index, the fence and the doorbell. -/
theorem fillPublish_eq (hv : s.cfg.valid = true) (hi : s.tx.next.toNat < s.cfg.nTx) (f : Frame) (segs : List Seg)
    (ctx : Option Word) :
    fillPublish f segs ctx s =
      publish (inc s.tx.next (frameDescriptors s.cfg f segs ctx).length s.cfg.nTx)
        (putSlots (vlanField s.cfg f.vlan) (frameDescriptors s.cfg f segs ctx) s.tx.next s) := by
  rw [fillPublish, fill_eq hv hi]

theorem length_le_of_sgMap (h : sgMap s f = some segs) : segs.length ≤ s.cfg.maxSegs := by
  unfold sgMap at h
  split at h
  · cases h
  · split at h <;> cases h
    rename_i hall
    simp only [Bool.and_eq_true, decide_eq_true_eq] at hall
    exact hall.1

/-- A frame that maps needs no more descriptors than the ring has (R167, 70_reset_and_hazards.md R286). -/
theorem descNeed_le_of_sgMap (hv : s.cfg.valid = true) (h : sgMap s f = some segs) : descNeed m segs ≤ s.cfg.nTx := by
  obtain ⟨-, -, hroom, -⟩ := Cfg.tx_of_valid hv
  have hlen := length_le_of_sgMap h
  cases m <;> simp only [descNeed] <;> omega

/-- What the fix-up stores is its arithmetic but for bytes that are not the frame's own (log entry 23). -/
theorem headerStored_storeHeader (d : Word) (hm1 : Memory.wf m1 = true) :
    HeaderStored s m segs m1 (storeHeader m segs m1 (addFree d s)).mem := by
  obtain ⟨-, hother, hown⟩ := storeHeader_mem (mode := m) (segs := segs) (s := addFree d s) hm1
  exact ⟨hother, fun h => by rw [hown h, State.setMem_mem]⟩

/-- The state an accepted frame leaves is the published one. -/
theorem published_fillPublish (hv : s.cfg.valid = true) (hm : Memory.wf s.mem = true) (hi : s.tx.next.toNat < s.cfg.nTx)
    (hl : s.tx.mbuf.length = s.cfg.nTx) (hs : sgMap s f = some segs)
    (hfix : headerFix s.cfg m s.mem segs = some (m1, ctx)) :
    let u := storeHeader m segs m1 (addFree (-BitVec.ofNat 32 (descNeed m segs)) s)
    Published (fillPublish f segs ctx u) s f m segs u.mem ctx := by
  intro u
  have hwf : Memory.wf u.mem = true := (storeHeader_mem (headerFix_wf hm hfix)).1
  have hneed : (frameDescriptors s.cfg f segs ctx).length = descNeed m segs := by
    rw [length_frameDescriptors, headerFix_ctx hfix]
  have hle : (frameDescriptors s.cfg f segs ctx).length ≤ s.cfg.nTx := hneed ▸ descNeed_le_of_sgMap hv hs
  rw [fillPublish_eq (s := u) hv hi, publish_eq]
  have hplain : m = .none → u.mem = s.mem ∧ ctx = none := by
    rintro rfl
    cases hfix
    exact ⟨rfl, rfl⟩
  refine ⟨rfl, hneed, fun j d hd => ⟨?_, ?_⟩, fun i hslots => ?_, fun a ha => ?_, hplain, ?_, ?_, rfl, rfl, rfl, rfl, rfl, rfl,
    rfl, rfl, rfl, newActs_of_trace rfl, rfl, rfl, rfl, rfl, rfl, rfl, rfl, rfl, rfl, rfl, rfl, rfl, rfl, rfl, rfl⟩
  · exact holdsDescriptor_storeSlots hv hi hwf hle hd
  · exact getElem?_trackSlots_at hv hi hl hle hd
  · exact getElem?_trackSlots_other hv hi (hneed ▸ hslots)
  · refine readByte_storeSlots_outside hv hi hwf fun j hj => ?_
    exact ha (txSlotRegion s j) (List.mem_map.2 ⟨j, List.mem_range.2 (hneed ▸ hj), rfl⟩)
  · rw [← hneed]; rfl
  · exact (BitVec.sub_eq_add_neg _ _).symm

/-- An enqueue of a frame that has its room publishes it. -/
theorem enqueue_publishes {room : Bool} (hp : frameProblem s.cfg m f = none) (hg : gateOpen s = true)
    (hs : sgMap s f = some segs) (hne : segs ≠ []) (hroom : room = true → lacksRoom (descNeed m segs) s = false)
    (ha : aligned8 s.tx.ringPhys = true) (hfix : headerFix s.cfg m s.mem segs = some (m1, ctx)) (hv : s.cfg.valid = true)
    (hm : Memory.wf s.mem = true) (hi : s.tx.next.toNat < s.cfg.nTx) (hl : s.tx.mbuf.length = s.cfg.nTx) :
    ∃ t m2, enqueue m room f s = .next t ∧ HeaderStored s m segs m1 m2 ∧ Published t s f m segs m2 ctx ∧
      t.foreign = s.foreign + (foreignHeader s m segs).length :=
  ⟨_, _, enqueue_accepted hp hg hs hne hroom ha hfix, headerStored_storeHeader _ (headerFix_wf hm hfix),
    published_fillPublish hv hm hi hl hs hfix, by simp only [fillPublish_frame, storeHeader_foreign]; rfl⟩

end Sys2Proof.Machine

open Sys2Proof Sys2Proof.Machine

/-- Settles O15: an enqueue with nothing to wait for, and the frame it accepts (`enqueue_publishes`). -/
theorem enqueuePublishesTheFrame : Obligations.EnqueuePublishesTheFrame := by
  unfold Obligations.EnqueuePublishesTheFrame
  intro m s segs m1 ctx hidle hmode hmss he hlink hs hne hroom ha hfix hv hm hi hl
  rw [exec_txqOf_of_idle m hidle]
  exact enqueue_publishes (frameProblem_eq_none_iff.2 ⟨hmode, hmss⟩) (gateOpen_iff.2 ⟨he, hlink⟩) hs hne
    (fun _ => decide_eq_false (not_lt.2 hroom)) ha hfix hv hm hi hl
end

section
/-! SUPPORT. One turn of `TX.PULL` (41_transmit.md R177) with no other agent stepping between its accesses, and O16 from it. -/

namespace Sys2Proof.Machine

variable {s t : State} {m : TsoMode} {f : Frame}

/-! ### An enqueue reads neither the PULLER nor the last result -/

theorem setTxMbuf_mark (i : Half) (v : Option Frame) (m1 : Memory) (s : State) (p : PullPhase) (r : Result) :
    setTxMbuf i v (((s.setPuller p).setResult r).setMem m1) = ((setTxMbuf i v (s.setMem m1)).setPuller p).setResult r := rfl

theorem fillOne_mark (f : Frame) (vt : Half) (cmd : Word) (g : Seg) (last : Bool) (i : Half) (s : State) (p : PullPhase)
    (r : Result) :
    fillOne f vt cmd g last i ((s.setPuller p).setResult r) = ((fillOne f vt cmd g last i s).setPuller p).setResult r := by
  simp only [fillOne, setTxMbuf_mark, State.setResult_cfg, State.setPuller_cfg, State.setResult_mem, State.setPuller_mem,
    State.setResult_tx, State.setPuller_tx]

theorem fillContext_mark (vt : Half) (cmd total : Word) (i : Half) (s : State) (p : PullPhase) (r : Result) :
    fillContext vt cmd total i ((s.setPuller p).setResult r) = ((fillContext vt cmd total i s).setPuller p).setResult r := by
  simp only [fillContext, setTxMbuf_mark, State.setResult_cfg, State.setPuller_cfg, State.setResult_mem,
    State.setPuller_mem, State.setResult_tx, State.setPuller_tx]

theorem fillData_mark (f : Frame) (vt : Half) (cmd : Word) (l : List Seg) (i : Half) (s : State) (p : PullPhase) (r : Result) :
    fillData f vt cmd l i ((s.setPuller p).setResult r) =
      ((fillData f vt cmd l i s).1, ((fillData f vt cmd l i s).2.setPuller p).setResult r) := by
  induction l generalizing i s with
  | nil => rfl
  | cons g rest ih =>
    rw [fillData, fillData, fillOne_mark, ih]
    rfl

theorem publish_mark (i : Half) (s : State) (p : PullPhase) (r : Result) :
    publish i ((s.setPuller p).setResult r) = (publish i s).setPuller p := rfl

theorem fillPublish_mark (f : Frame) (segs : List Seg) (ctx : Option Word) (s : State) (p : PullPhase) (r : Result) :
    fillPublish f segs ctx ((s.setPuller p).setResult r) = (fillPublish f segs ctx s).setPuller p := by
  cases ctx <;>
    simp only [fillPublish, fill, State.setResult_cfg, State.setPuller_cfg, State.setResult_tx, State.setPuller_tx,
      fillContext_mark, fillData_mark, publish_mark]

theorem enqueueReserved_mark (m : TsoMode) (f : Frame) (segs : List Seg) (s : State) (p : PullPhase) (r : Result) :
    enqueueReserved m f segs ((s.setPuller p).setResult r) =
      andThen (enqueueReserved m f segs s) fun t => .next (t.setPuller p) := by
  have hfix : headerFix ((s.setPuller p).setResult r).cfg m ((s.setPuller p).setResult r).mem segs =
    headerFix s.cfg m s.mem segs := rfl
  have hring : ((s.setPuller p).setResult r).tx.ringPhys = s.tx.ringPhys := rfl
  unfold enqueueReserved
  rw [hfix, hring]
  cases aligned8 s.tx.ringPhys with
  | false => rfl
  | true =>
    rcases headerFix s.cfg m s.mem segs with _ | ⟨m1, ctx⟩
    · rfl
    · exact congrArg Host.Outcome.next (fillPublish_mark f segs ctx (storeHeader m segs m1 s) p r)

theorem enqueue_mark (m : TsoMode) (room : Bool) (f : Frame) (s : State) (p : PullPhase) (r : Result) :
    enqueue m room f ((s.setPuller p).setResult r) = andThen (enqueue m room f s) fun t => .next (t.setPuller p) := by
  have hproblem : frameProblem ((s.setPuller p).setResult r).cfg m f = frameProblem s.cfg m f := rfl
  have hgate : gateOpen ((s.setPuller p).setResult r) = gateOpen s := rfl
  have hmap : sgMap ((s.setPuller p).setResult r) f = sgMap s f := rfl
  have hlacks (n : Nat) : lacksRoom n ((s.setPuller p).setResult r) = lacksRoom n s := rfl
  unfold enqueue
  rw [hproblem, hgate, hmap]
  cases frameProblem s.cfg m f with
  | some q => rfl
  | none =>
    cases gateOpen s with
    | false => rfl
    | true =>
      rcases sgMap s f with _ | _ | ⟨g, rest⟩
      · rfl
      · rfl
      · simp only [hlacks]
        cases room && lacksRoom (descNeed m (g :: rest)) s with
        | true => rfl
        | false => exact enqueueReserved_mark m f (g :: rest) (addFree (-BitVec.ofNat 32 (descNeed m (g :: rest))) s) p r

theorem setPuller_of_eq {p : PullPhase} (h : s.puller = p) : s.setPuller p = s := by rw [← h]; rfl

theorem enqueue_setPuller (m : TsoMode) (room : Bool) (f : Frame) (s : State) (p : PullPhase) :
    enqueue m room f (s.setPuller p) = andThen (enqueue m room f s) fun t => .next (t.setPuller p) :=
  enqueue_mark m room f s p s.result

theorem enqueue_setResult (m : TsoMode) (room : Bool) (f : Frame) (s : State) (r : Result) :
    enqueue m room f (s.setResult r) = enqueue m room f s := by
  refine (enqueue_mark m room f s s.puller r).trans ?_
  cases h : enqueue m room f s with
  | next t => rw [andThen_next, setPuller_of_eq (enqueue_frame h).2.2.2.2.2.2.2.2.2.2.2.2]
  | fault q => rfl
  | refused q => rfl

/-! ### The accesses of a `TX.PULL` in progress -/

theorem pullNext_setResult (s : State) (r : Result) : pullNext (s.setResult r) = (pullNext s).setResult r := by
  have hq : (s.setResult r).env.outbound = s.env.outbound := rfl
  unfold pullNext dequeueOutbound
  rw [hq]
  cases s.env.outbound <;> rfl

theorem pullNext_empty (h : s.env.outbound = []) : pullNext s = s.setPuller .idle := by
  simp only [pullNext, dequeueOutbound, h]

theorem pullNext_head {rest : List Frame} (h : s.env.outbound = f :: rest) :
    pullNext s = (s.setEnv { s.env with outbound := rest }).setPuller (.holds f) := by
  simp only [pullNext, dequeueOutbound, h]

/-- An access reads the last result no more than an enqueue does, and leaves it. -/
theorem pullStep_setResult (s : State) (r : Result) :
    pullStep (s.setResult r) = andThen (pullStep s) fun t => .next (t.setResult r) := by
  have hpuller : (s.setResult r).puller = s.puller := rfl
  unfold pullStep
  rw [hpuller]
  cases s.puller with
  | idle => rfl
  | looping => rfl
  | saw free =>
    dsimp only
    rw [State.setResult_cfg]
    cases belowReserve free s.cfg with
    | true => rfl
    | false => exact congrArg Host.Outcome.next (pullNext_setResult s r)
  | holds f =>
    dsimp only [pullSend, txSend]
    rw [enqueue_setResult]
    cases enqueue f.tsoMode false f s <;> rfl

theorem pullWork_pos (h : s.puller ≠ .idle) : 0 < pullWork s := by
  have hweight : 0 < phaseWeight s.puller := by
    cases hp : s.puller with
    | idle => exact absurd hp h
    | looping => decide
    | saw free => exact Nat.one_pos
    | holds f => exact Nat.succ_pos 2
  rw [pullWork]
  omega

theorem pullRun_of_idle (n : Nat) (h : s.puller = .idle) : pullRun n s = .next s := by
  cases n <;> simp [pullRun, pulling, h]

theorem pullRun_succ (hd : s.env.during = []) (hp : s.puller ≠ .idle) (n : Nat) :
    pullRun (n + 1) s = andThen (pullStep s) (pullRun n) := by
  rw [pullRun, if_pos ((pulling_iff s).2 hp), macPoint_of_during_nil hd]

theorem during_of_pullStep (hd : s.env.during = []) (h : pullStep s = .next t) : t.env.during = [] :=
  (pullStep_work h).1.trans hd

/-- Accesses enough are all the accesses there are. -/
theorem pullRun_enough (hd : s.env.during = []) {j k : Nat} (hj : pullWork s ≤ j) (hk : pullWork s ≤ k) :
    pullRun j s = pullRun k s := by
  induction j generalizing s k with
  | zero =>
    have hi : s.puller = .idle := by
      by_contra h
      have := pullWork_pos h
      omega
    rw [pullRun_of_idle _ hi, pullRun_of_idle _ hi]
  | succ j ih =>
    by_cases hi : s.puller = .idle
    · rw [pullRun_of_idle _ hi, pullRun_of_idle _ hi]
    · have hpos := pullWork_pos hi
      obtain ⟨k, rfl⟩ : ∃ i, k = i + 1 := Nat.exists_eq_succ_of_ne_zero (by omega)
      rw [pullRun_succ hd hi, pullRun_succ hd hi]
      cases hs : pullStep s with
      | next t =>
        have hlt := (pullStep_work hs).2.2.2 hi
        exact ih (during_of_pullStep hd hs) (by omega) (by omega)
      | fault q => rfl
      | refused q => rfl

theorem pullRun_setResult (hd : s.env.during = []) (r : Result) (n : Nat) :
    pullRun n (s.setResult r) = andThen (pullRun n s) fun t => .next (t.setResult r) := by
  induction n generalizing s with
  | zero => rfl
  | succ n ih =>
    by_cases hi : s.puller = .idle
    · rw [pullRun_of_idle _ hi, pullRun_of_idle _ (by simpa using hi)]
      rfl
    · rw [pullRun_succ hd hi, pullRun_succ (by simpa using hd) (by simpa using hi), pullStep_setResult]
      cases hs : pullStep s with
      | next t => exact ih (during_of_pullStep hd hs)
      | fault q => rfl
      | refused q => rfl

/-! ### One turn (R177) -/

/-- `s` as a `TX.PULL` leaves the environment's side: the signals answered, and `rest` of the queue still there. -/
def pulled (s : State) (rest : List Frame) : State :=
  s.setEnv { s.env with outbound := rest, resumable := false, offered := false }

@[simp] theorem pulled_puller (s : State) (rest : List Frame) : (pulled s rest).puller = s.puller := rfl

theorem exec_txPull_of_idle (h : s.puller = .idle) : exec .txPull s = pull s := by
  change andThen (finishPull s) pull = pull s
  rw [finishPull_of_idle h, andThen_next]

/-- A `TX.PULL` that has sent a frame goes on like one that begins there. -/
theorem pullRun_afterSend {k : Nat} (hidle : t.puller = .idle) (hd : t.env.during = []) (hr : t.env.resumable = false)
    (ho : t.env.offered = false) (hk : 3 * t.env.outbound.length + 2 ≤ k) (r : Result) :
    (andThen (pullRun k ((t.setResult r).setPuller .looping)) fun u => .next (u.setResult .returned)) = exec .txPull t := by
  have henv : { t.env with resumable := false, offered := false } = t.env :=
    (show _ = { t.env with resumable := t.env.resumable, offered := t.env.offered } by rw [hr, ho])
  have hbegin : beginPull t = t.setPuller .looping := by rw [beginPull, henv]; rfl
  have hdt : (beginPull t).env.during = [] := by simpa [hbegin] using hd
  have hwork : pullWork (beginPull t) = 3 * t.env.outbound.length + 2 := by
    simp [pullWork, pendingSteps, phaseWeight, hbegin, hd]
  have hfuel : pullRun k (beginPull t) = finishPull (beginPull t) := by
    refine pullRun_enough hdt (by omega) ?_
    have := phaseWeight_le (beginPull t).puller
    rw [pullWork, pullFuel]
    omega
  have hmark : (t.setResult r).setPuller .looping = (beginPull t).setResult r := by rw [hbegin]; rfl
  rw [hmark, pullRun_setResult hdt, hfuel, exec_txPull_of_idle hidle, pull]
  cases finishPull (beginPull t) <;> rfl

/-- `s` as a `TX.PULL` leaves it that begins and reads the free count. -/
def sawFree (s : State) : State := (beginPull s).setPuller (.saw s.tx.numFree)

/-- What it does next hangs on the reserve. -/
theorem pullStep_sawFree (s : State) :
    pullStep (sawFree s) = .next
      (if belowReserve s.tx.numFree s.cfg then (pulled (s.setTx { s.tx with stalled := true }) s.env.outbound).setPuller .idle
      else pullNext (sawFree s)) := rfl

section
variable (hd : s.env.during = [])
include hd

/-- A `TX.PULL` that begins reads the free count, and then stops or looks at the queue. -/
theorem pullRun_beginPull (n : Nat) :
    pullRun (n + 2) (beginPull s) = andThen (pullStep (sawFree s)) (pullRun n) := by
  have hfirst : pullRun (n + 2) (beginPull s) = pullRun (n + 1) (sawFree s) :=
    pullRun_succ (s := beginPull s) hd (by simp [beginPull]) (n + 1)
  rw [hfirst, pullRun_succ (s := sawFree s) hd (by simp [sawFree])]

theorem pull_eq : pull s = andThen
    (andThen (pullStep (sawFree s)) (pullRun (3 * s.env.outbound.length + 4)))
    fun t => .next (t.setResult .returned) := by
  have hfuel : pullFuel (beginPull s) = 3 * s.env.outbound.length + 4 + 2 := by
    simp [pullFuel, pendingSteps, beginPull, hd]
  rw [pull, finishPull, hfuel, pullRun_beginPull hd]

variable (hidle : s.puller = .idle)
include hidle

/-- Below the reserve it stops, flagging the queue as stalled. -/
theorem exec_txPull_below (h : belowReserve s.tx.numFree s.cfg = true) :
    exec .txPull s = .next ((pulled (s.setTx { s.tx with stalled := true }) s.env.outbound).setResult .returned) := by
  have hsaw := pullStep_sawFree s
  rw [if_pos h] at hsaw
  rw [exec_txPull_of_idle hidle, pull_eq hd, hsaw, andThen_next, pullRun_of_idle _ rfl, andThen_next,
    setPuller_of_eq (by simpa using hidle)]

variable (h : belowReserve s.tx.numFree s.cfg = false)
include h

/-- With room, an empty queue is all that is left. -/
theorem exec_txPull_empty (hq : s.env.outbound = []) : exec .txPull s = .next ((pulled s []).setResult .returned) := by
  have hsaw : pullStep (sawFree s) = .next ((pulled s []).setPuller .idle) := by
    rw [pullStep_sawFree, h, if_neg Bool.false_ne_true, pullNext_empty (s := sawFree s) hq, pulled, ← hq]
    rfl
  rw [exec_txPull_of_idle hidle, pull_eq hd, hsaw, andThen_next, pullRun_of_idle _ rfl, andThen_next,
    setPuller_of_eq (by simpa using hidle)]

/-- With room, the frame at the head of the queue is sent, and the rest is what a `TX.PULL` from there on does. -/
theorem exec_txPull_turn {rest : List Frame} (hq : s.env.outbound = f :: rest) :
    exec .txPull s = andThen (txSend false f (pulled s rest)) (exec .txPull) := by
  have hsaw : pullStep (sawFree s) = .next ((pulled s rest).setPuller (.holds f)) := by
    rw [pullStep_sawFree, h, if_neg Bool.false_ne_true, pullNext_head (s := sawFree s) hq]
    rfl
  have hlen : 3 * s.env.outbound.length + 4 = 3 * rest.length + 6 + 1 := by rw [hq, List.length_cons]; omega
  have hsend : pullStep ((pulled s rest).setPuller (.holds f)) = andThen (txSend false f (pulled s rest)) fun u =>
      .next ((u.setResult s.result).setPuller .looping) := by
    change pullSend f _ = _
    rw [pullSend, txSend, enqueue_setPuller, ← txSend]
    cases txSend false f (pulled s rest) <;> rfl
  rw [exec_txPull_of_idle hidle, pull_eq hd, hsaw, andThen_next, hlen,
    pullRun_succ (s := (pulled s rest).setPuller (.holds f)) hd (by simp), hsend]
  cases hu : txSend false f (pulled s rest) with
  | next u =>
    obtain ⟨-, -, -, -, -, -, -, -, henv, -, -, -, hpuller⟩ := enqueue_frame hu
    refine pullRun_afterSend (hpuller.trans hidle) ?_ ?_ ?_ ?_ s.result <;> rw [henv]
    exacts [hd, rfl, rfl, Nat.le_add_right _ 4]
  | fault q => rfl
  | refused q => rfl

end

end Sys2Proof.Machine
end

section
/-! SUPPORT. O16: a `TX.PULL` that waits, one below the reserve, and one with the gate closed (41_transmit.md R177, R161). -/

namespace Sys2Proof.Machine

variable {s : State}

/-- What an operation that waits for a `TX.PULL` does once there is none, it does after it (20_memory.md R85). -/
theorem exec_waits {i : Instr} (F : State → Out) (hF : ∀ t, exec i t = andThen (finishPull t) F) (s : State) :
    exec i s = andThen (finishPull s) (exec i) := by
  rw [hF s]
  cases h : finishPull s with
  | next t => rw [andThen_next, andThen_next, hF t, finishPull_of_idle (finishPull_idle h), andThen_next]
  | fault q => rfl
  | refused q => rfl

/-- What a dropped queue shows, oldest act first. -/
def dropActs (l : List Frame) : List Act := l.flatMap fun f => [.raised .txDropGate, .release f false]

theorem filter_isRelease_dropActs (l : List Frame) : (dropActs l).filter isRelease = l.map (Act.release · false) := by
  induction l with
  | nil => rfl
  | cons f rest ih =>
    have hcons : dropActs (f :: rest) = .raised .txDropGate :: .release f false :: dropActs rest := rfl
    rw [hcons, List.filter_cons_of_neg (by simp [isRelease]), List.filter_cons_of_pos rfl, ih, List.map_cons]

/-- `s` after a `TX.PULL` that dropped its queue. -/
def droppedQueue (s : State) (l : List Frame) : State :=
  { s with
    stats := { s.stats with txDrop := s.stats.txDrop + l.length },
    env := { s.env with outbound := [], resumable := false, offered := false },
    result := .returned, trace := (dropActs l).reverse ++ s.trace }

/-- `s` after a turn that dropped the head of its queue. -/
def droppedHead (s : State) (f : Frame) (rest : List Frame) : State :=
  { s with
    stats := { s.stats with txDrop := s.stats.txDrop + 1 },
    env := { s.env with outbound := rest, resumable := false, offered := false },
    result := .droppedGate, trace := .release f false :: .raised .txDropGate :: s.trace }

theorem droppedQueue_cons (s : State) (f : Frame) (rest : List Frame) :
    droppedQueue (droppedHead s f rest) rest = droppedQueue s (f :: rest) := by
  have hcount : s.stats.txDrop + 1 + rest.length = s.stats.txDrop + (rest.length + 1) := by omega
  simp [droppedQueue, droppedHead, dropActs, hcount]

/-- With the gate closed every turn drops a frame and leaves the next turn the same room and the same gate. -/
theorem exec_txPull_gateClosed {l : List Frame} (hd : s.env.during = []) (hidle : s.puller = .idle)
    (hroom : belowReserve s.tx.numFree s.cfg = false) (hg : gateOpen s = false) (hq : s.env.outbound = l)
    (hfit : ∀ f ∈ l, f.tsoMode = .none ∨ mssInRange s.cfg f.mss = true) :
    exec .txPull s = .next (droppedQueue s l) := by
  induction l generalizing s with
  | nil => exact exec_txPull_empty hd hidle hroom hq
  | cons f rest ih =>
    have hdrop : txSend false f (pulled s rest) = .next (droppedHead s f rest) :=
      enqueue_gate_closed (s := pulled s rest) (frameProblem_eq_none_iff.2 ⟨rfl, hfit f List.mem_cons_self⟩) false hg
    rw [exec_txPull_turn hd hidle hroom hq, hdrop, andThen_next,
      ih (s := droppedHead s f rest) hd hidle hroom hg rfl fun g hmem => hfit g (List.mem_cons_of_mem _ hmem),
      droppedQueue_cons]

end Sys2Proof.Machine

open Sys2Proof Sys2Proof.Machine

/-- Settles O16: the wait, the stop below the reserve, and the queue dropped turn by turn (`exec_txPull_gateClosed`). -/
theorem pullStopsOrDropsTheQueue : Obligations.PullStopsOrDropsTheQueue := by
  unfold Obligations.PullStopsOrDropsTheQueue
  intro s hd
  refine ⟨?_, fun hidle hroom => ?_, fun hidle hroom hgate hfit => ?_⟩
  · rintro i (rfl | ⟨m, rfl⟩)
    · exact exec_waits pull (fun t => rfl) s
    · exact exec_waits _ (exec_txqOf m) s
  · rw [exec_txPull_below hd hidle (decide_eq_true hroom)]
    rfl
  · have hclosed : gateOpen s = false := by simpa only [← gateOpen_iff, Bool.not_eq_true] using hgate
    have hacts : newActs (droppedQueue s s.env.outbound) s = dropActs s.env.outbound := newActs_of_trace rfl
    refine ⟨_, exec_txPull_gateClosed hd hidle (decide_eq_false (not_lt.2 hroom)) hclosed rfl hfit, rfl, rfl, rfl, rfl, rfl,
      rfl, rfl, hidle, ?_, rfl, rfl, rfl, rfl, rfl, rfl, rfl, rfl, rfl, rfl⟩
    rw [hacts, filter_isRelease_dropActs]
end

section
/-! SUPPORT. Late stores behind the fences and doorbells of one producer (20_memory.md R89, R91). -/

namespace Sys2Proof.Machine

/-- Every store of a list stands behind a fence. -/
def AllFenced (l : List LateStore) : Prop := ∀ e ∈ l, e.due.isSome = true

theorem allFenced_fenced (k : Nat) (l : List LateStore) : AllFenced (fenced k l) := by
  intro e he
  obtain ⟨d, -, rfl⟩ := List.mem_map.1 he
  rfl

theorem AllFenced.lateAfter {l : List LateStore} (h : AllFenced l) (n : Nat) : AllFenced (lateAfter n l) := by
  intro e he
  obtain ⟨⟨b, seen, _ | j⟩, hd, hsome⟩ := List.mem_filterMap.1 he
  · simpa using h _ hd
  · simp only [afterBells] at hsome
    split at hsome <;> cases hsome
    rfl

/-- A further fence adds nothing (R89). -/
theorem AllFenced.fenced {l : List LateStore} (h : AllFenced l) (k : Nat) : fenced k l = l := by
  refine (List.map_congr_left fun ⟨b, seen, due⟩ he => ?_).trans (List.map_id' l)
  cases due with
  | none => simpa using h _ he
  | some j => rfl

end Sys2Proof.Machine
end

section
/-! SUPPORT. O17: the queue of plain frames a `TX.PULL` sends, turn by turn (41_transmit.md R177), and what that leaves. -/

namespace Sys2Proof.Machine

variable {s : State} {f : Frame} {l rest : List Frame}

/-! ### One plain frame sent -/

/-- How many descriptors a plain frame needs (R167). -/
def plainNeed (s : State) (f : Frame) : Nat := ((sgMap s f).getD []).length

/-- The producer index behind a plain frame. -/
def nextAfter (s : State) (f : Frame) : Half := inc s.tx.next (plainNeed s f) s.cfg.nTx

/-- The descriptors of a plain frame. -/
def plainDescriptors (s : State) (f : Frame) : List Descriptor := frameDescriptors s.cfg f ((sgMap s f).getD []) none

/-- `s` after a turn of `TX.PULL` that sent the plain frame at the head of its queue. -/
def sentHead (s : State) (f : Frame) (rest : List Frame) : State :=
  { s with
    tx := { s.tx with
      next := nextAfter s f, numFree := s.tx.numFree + -BitVec.ofNat 32 (plainNeed s f),
      mbuf := trackSlots s.cfg.nTx (plainDescriptors s f) s.tx.next s.tx.mbuf },
    mem := storeSlots s.cfg s.tx.ringPhys (vlanField s.cfg f.vlan) (plainDescriptors s f) s.tx.next s.mem,
    late := lateAfterBell s (fenced s.posted.length s.late), posted := postedAfter .tx s,
    mac := { s.mac with regs := { s.mac.regs with tpdPidx := nextAfter s f } },
    env := { s.env with outbound := rest, resumable := false, offered := false }, result := .sent,
    trace := .regWrite s.cfg.regmap.tpdPidx.offset s.cfg.regmap.tpdPidx.width ((nextAfter s f).setWidth 32) :: .fence ::
      s.trace }

theorem storeHeader_none (segs : List Seg) (s : State) : storeHeader .none segs s.mem s = s := rfl

theorem txSend_plain {g : Seg} {gs : List Seg} (hg : gateOpen s = true) (hmode : f.tsoMode = .none)
    (hs : sgMap s f = some (g :: gs)) (ha : aligned8 s.tx.ringPhys = true) (hv : s.cfg.valid = true)
    (hi : s.tx.next.toNat < s.cfg.nTx) (rest : List Frame) :
    txSend false f (pulled s rest) = .next (sentHead s f rest) := by
  have hneed : descNeed .none (g :: gs) = plainNeed s f := by simp [descNeed, plainNeed, hs]
  have hdesc : frameDescriptors s.cfg f (g :: gs) none = plainDescriptors s f := by simp [plainDescriptors, hs]
  have hlen : (plainDescriptors s f).length = plainNeed s f := by
    simp [plainDescriptors, plainNeed, length_frameDescriptors]
  have hsend := enqueue_accepted (s := pulled s rest) (room := false) (frameProblem_eq_none_iff.2 ⟨hmode, .inl rfl⟩) hg hs
    (List.cons_ne_nil g gs) (by simp) ha (m1 := s.mem) (ctx := none) rfl
  rw [hneed] at hsend
  rw [txSend, hmode, hsend]
  refine congrArg Host.Outcome.next ?_
  refine (fillPublish_eq (s := addFree (-BitVec.ofNat 32 (plainNeed s f)) (pulled s rest)) hv hi f (g :: gs) none).trans ?_
  have hslots : frameDescriptors (addFree (-BitVec.ofNat 32 (plainNeed s f)) (pulled s rest)).cfg f (g :: gs) none =
    plainDescriptors s f := hdesc
  rw [hslots, hlen, publish_eq]
  rfl

/-! ### The queue -/

/-- `s` after a `TX.PULL` that sent a queue of plain frames. -/
def sentQueue : List Frame → State → State
  | [], s => (pulled s []).setResult .returned
  | f :: rest, s => sentQueue rest (sentHead s f rest)

@[simp] theorem queueNeed_nil (s : State) : queueNeed s [] = 0 := rfl

theorem queueNeed_cons (s : State) (f : Frame) (l : List Frame) : queueNeed s (f :: l) = plainNeed s f + queueNeed s l := by
  simp [queueNeed, plainNeed]

/-- How many descriptors a frame needs is the configuration's to say. -/
theorem queueNeed_sentHead (s : State) (f : Frame) (rest l : List Frame) :
    queueNeed (sentHead s f rest) l = queueNeed s l := rfl

/-- A `TX.PULL` that can send all of a queue of plain frames: the gate is open and there is room for them above the reserve. -/
structure CanSend (s : State) (l : List Frame) : Prop where
  during : s.env.during = []
  idle : s.puller = .idle
  valid : s.cfg.valid = true
  gate : gateOpen s = true
  ring : aligned8 s.tx.ringPhys = true
  next : s.tx.next.toNat < s.cfg.nTx
  queue : s.env.outbound = l
  plain : ∀ f ∈ l, f.tsoMode = .none ∧ ∃ g gs, sgMap s f = some (g :: gs)
  room : (s.cfg.pullReserve : Int) + queueNeed s l ≤ s.tx.numFree.toInt

theorem CanSend.above_reserve (h : CanSend s l) : belowReserve s.tx.numFree s.cfg = false := by
  have := h.room
  exact decide_eq_false (by omega)

/-- One frame sent leaves room for the others. -/
theorem CanSend.sentHead (h : CanSend s (f :: rest)) : CanSend (sentHead s f rest) rest where
  during := h.during
  idle := h.idle
  valid := h.valid
  gate := h.gate
  ring := h.ring
  next := inc_inside h.valid _ _
  queue := rfl
  plain := fun g hg => h.plain g (List.mem_cons_of_mem _ hg)
  room := by
    have hroom := h.room
    rw [queueNeed_cons] at hroom
    have hfree : (Machine.sentHead s f rest).tx.numFree.toInt = s.tx.numFree.toInt - plainNeed s f :=
      toInt_add_neg_ofNat (by omega)
    rw [hfree, queueNeed_sentHead]
    change (s.cfg.pullReserve : Int) + _ ≤ _
    omega

/-- Turn by turn the whole queue is sent. -/
theorem exec_txPull_sends (h : CanSend s l) : exec .txPull s = .next (sentQueue l s) := by
  induction l generalizing s with
  | nil => exact exec_txPull_empty h.during h.idle h.above_reserve h.queue
  | cons f rest ih =>
    obtain ⟨hmode, g, gs, hs⟩ := h.plain f List.mem_cons_self
    rw [exec_txPull_turn h.during h.idle h.above_reserve h.queue, txSend_plain h.gate hmode hs h.ring h.valid h.next,
      andThen_next, ih h.sentHead, sentQueue]

/-! ### What a sent queue leaves -/

theorem sentQueue_frame (l : List Frame) (s : State) :
    (sentQueue l s).result = .returned ∧ (sentQueue l s).puller = s.puller ∧
    (sentQueue l s).env = { s.env with outbound := [], resumable := false, offered := false } ∧
    (sentQueue l s).tx.ringPhys = s.tx.ringPhys ∧ (sentQueue l s).tx.dirty = s.tx.dirty ∧
    (sentQueue l s).tx.doneCount = s.tx.doneCount ∧ (sentQueue l s).tx.stalled = s.tx.stalled ∧
    (sentQueue l s).stats = s.stats ∧ (sentQueue l s).rx = s.rx ∧ (sentQueue l s).pool = s.pool ∧
    (sentQueue l s).flags = s.flags ∧ (sentQueue l s).wdt = s.wdt ∧ (sentQueue l s).link = s.link ∧
    (sentQueue l s).medium = s.medium ∧ (sentQueue l s).intrMask = s.intrMask ∧ (sentQueue l s).cfg = s.cfg ∧
    (sentQueue l s).foreign = s.foreign := by
  induction l generalizing s with
  | nil => exact ⟨rfl, rfl, rfl, rfl, rfl, rfl, rfl, rfl, rfl, rfl, rfl, rfl, rfl, rfl, rfl, rfl, rfl⟩
  | cons f rest ih => exact ih (sentHead s f rest)

theorem sentQueue_numFree (l : List Frame) (s : State) :
    (sentQueue l s).tx.numFree = s.tx.numFree - BitVec.ofNat 32 (queueNeed s l) := by
  induction l generalizing s with
  | nil => exact (BitVec.sub_zero _).symm
  | cons f rest ih =>
    have hfree : (sentHead s f rest).tx.numFree = s.tx.numFree - BitVec.ofNat 32 (plainNeed s f) :=
      (BitVec.sub_eq_add_neg _ _).symm
    rw [sentQueue, ih, hfree, queueNeed_cons, queueNeed_sentHead, BitVec.ofNat_add, sub_add_eq_sub_sub]

/-- One doorbell for each frame. -/
theorem sentQueue_countActs (l : List Frame) (s : State) :
    countActs (isWriteTo s.cfg.regmap.tpdPidx.offset) (sentQueue l s) =
      countActs (isWriteTo s.cfg.regmap.tpdPidx.offset) s + l.length := by
  induction l generalizing s with
  | nil => rfl
  | cons f rest ih =>
    have hone : countActs (isWriteTo s.cfg.regmap.tpdPidx.offset) (sentHead s f rest) =
        countActs (isWriteTo s.cfg.regmap.tpdPidx.offset) s + 1 := by
      simp [countActs, sentHead, isWriteTo]
    have hcfg : (sentHead s f rest).cfg = s.cfg := rfl
    have hrest := ih (sentHead s f rest)
    rw [hcfg, hone] at hrest
    rw [sentQueue, hrest, List.length_cons]
    omega

theorem sentQueue_late (l : List Frame) (s : State) :
    (sentQueue l s).late =
      if l = [] then s.late
      else if s.env.slowBus then fenced s.posted.length s.late
      else lateAfter (s.posted.length + l.length) (fenced s.posted.length s.late) := by
  induction l generalizing s with
  | nil => rfl
  | cons f rest ih =>
    have hslow : (sentHead s f rest).env.slowBus = s.env.slowBus := rfl
    have hlate : (sentHead s f rest).late = lateAfterBell s (fenced s.posted.length s.late) := rfl
    have hposted : (sentHead s f rest).posted = postedAfter .tx s := rfl
    rw [sentQueue, ih, hslow, hlate, hposted, if_neg (List.cons_ne_nil f rest), lateAfterBell, postedAfter]
    have hfenced := allFenced_fenced s.posted.length s.late
    cases s.env.slowBus with
    | true => simp [hfenced.fenced]
    | false =>
      by_cases hr : rest = []
      · simp [hr]
      · simp only [hr, Bool.false_eq_true, if_false, (hfenced.lateAfter _).fenced, lateAfter_lateAfter, List.length_nil]
        congr 1
        rw [List.length_cons]
        omega

/-- The doorbell write before which `j` frames of a queue were sent. -/
def queueBell (s : State) (l : List Frame) (j : Nat) : Posted where
  bell := .tx
  before := if j = 0 then s.mac.regs.tpdPidx else inc s.tx.next (queueNeed s (l.take j)) s.cfg.nTx

theorem queueBell_succ (hv : s.cfg.valid = true) (f : Frame) (rest : List Frame) (j : Nat) :
    queueBell s (f :: rest) (j + 1) = queueBell (sentHead s f rest) rest j := by
  have hnext : (sentHead s f rest).tx.next = inc s.tx.next (plainNeed s f) s.cfg.nTx := rfl
  have hcfg : (sentHead s f rest).cfg = s.cfg := rfl
  have hbell : (sentHead s f rest).mac.regs.tpdPidx = inc s.tx.next (plainNeed s f) s.cfg.nTx := rfl
  cases j with
  | zero => simp [queueBell, hbell, queueNeed_cons]
  | succ j => simp [queueBell, hnext, hcfg, queueNeed_cons, queueNeed_sentHead, inc_add hv]

section
variable (hv : s.cfg.valid = true) (hi : s.tx.next.toNat < s.cfg.nTx)
include hv hi

theorem sentQueue_next (l : List Frame) : (sentQueue l s).tx.next = inc s.tx.next (queueNeed s l) s.cfg.nTx := by
  induction l generalizing s with
  | nil => exact (inc_first hv hi).symm
  | cons f rest ih =>
    rw [sentQueue, ih (s := sentHead s f rest) hv (inc_inside hv _ _), queueNeed_cons, ← inc_add hv]
    rfl

theorem sentQueue_mac (l : List Frame) :
    (sentQueue l s).mac = { s.mac with regs := { s.mac.regs with
      tpdPidx := if l = [] then s.mac.regs.tpdPidx else (sentQueue l s).tx.next } } := by
  induction l generalizing s with
  | nil => rfl
  | cons f rest ih =>
    have hrest := ih (s := sentHead s f rest) hv (inc_inside hv _ _)
    rw [if_neg (List.cons_ne_nil f rest), sentQueue, hrest]
    by_cases hr : rest = []
    · subst hr
      rfl
    · rw [if_neg hr]
      rfl

theorem sentQueue_posted (l : List Frame) :
    (sentQueue l s).posted =
      if s.env.slowBus then s.posted ++ (List.range l.length).map (queueBell s l)
      else if l = [] then s.posted else [] := by
  induction l generalizing s with
  | nil => simp [sentQueue, pulled]
  | cons f rest ih =>
    have hslow : (sentHead s f rest).env.slowBus = s.env.slowBus := rfl
    have hposted : (sentHead s f rest).posted = postedAfter .tx s := rfl
    have hfirst : queueBell s (f :: rest) 0 = { bell := .tx, before := bellValue .tx s } := rfl
    rw [sentQueue, ih (s := sentHead s f rest) hv (inc_inside hv _ _), hslow, hposted, postedAfter]
    cases s.env.slowBus with
    | true =>
      simp only [if_true, List.length_cons, List.range_succ_eq_map, List.map_cons, List.map_map, hfirst, List.append_assoc,
        List.singleton_append]
      refine congrArg (s.posted ++ _ :: ·) (List.map_congr_left fun j _ => ?_)
      exact (queueBell_succ hv f rest j).symm
    | false => simp

theorem readByte_sentQueue_outside (l : List Frame) (hm : Memory.wf s.mem = true) {a : Addr}
    (ha : inRange s.tx.ringPhys (txBytes s.cfg) a = false) : readByte (sentQueue l s).mem a = readByte s.mem a := by
  induction l generalizing s with
  | nil => rfl
  | cons f rest ih =>
    have hm' : Memory.wf (sentHead s f rest).mem = true := storeSlots_wf _ _ _ _ _ hm
    rw [sentQueue, ih (s := sentHead s f rest) hv (inc_inside hv _ _) hm' ha]
    refine readByte_storeSlots_outside hv hi hm fun j _ => ?_
    by_contra hin
    simp [inRange_ring_of_stepSlot hv _ _ (Bool.eq_true_of_not_eq_false hin)] at ha

end

end Sys2Proof.Machine

open Sys2Proof Sys2Proof.Machine

/-- Settles O17: the turn (`exec_txPull_turn`) with the frame it publishes, and the queue of plain frames turn by turn. -/
theorem pullSendsTheQueue : Obligations.PullSendsTheQueue := by
  unfold Obligations.PullSendsTheQueue
  intro s hd hidle hv he hlink ha hi
  have hg : gateOpen s = true := gateOpen_iff.2 ⟨he, hlink⟩
  refine ⟨fun f rest segs m1 ctx hq hroom hmss hs hne hfix hm hl => ?_, fun hplain hroom => ?_⟩
  · obtain ⟨u, m2, hu, hstored, hpub, hforeign⟩ := enqueue_publishes (s := pulled s rest) (room := false)
      (frameProblem_eq_none_iff.2 ⟨rfl, hmss⟩) hg hs hne (by simp) ha hfix hv hm hi hl
    refine ⟨u, m2, hstored, hpub, hforeign, ?_⟩
    rw [exec_txPull_turn hd hidle (decide_eq_false (not_lt.2 hroom)) hq, txSend, hu, andThen_next]
  · have hsend : CanSend s s.env.outbound := ⟨hd, hidle, hv, hg, ha, hi, rfl, hplain, hroom⟩
    obtain ⟨hresult, hpuller, henv, hring, hdirty, hdone, hstalled, hframe⟩ := sentQueue_frame s.env.outbound s
    refine ⟨_, exec_txPull_sends hsend, hresult, hpuller.trans hidle, henv, sentQueue_next hv hi _, sentQueue_numFree _ s,
      hring, hdirty, hdone, hstalled, sentQueue_late _ s, sentQueue_posted hv hi _, sentQueue_countActs _ s, sentQueue_mac hv hi _,
      fun hm a hout => readByte_sentQueue_outside hv hi _ hm (hout _ (List.mem_singleton_self _)), hframe⟩
end

section
/-! SUPPORT. O22, O29: a receive walk with a finite budget or nothing ready (42_receive.md R190, R200, R201), and what a delivered
frame says of its checksums and its tag (R196, R197). -/

namespace Sys2Proof.Machine

variable {s : State}

theorem refillCheck_eq (s : State) : refillCheck s = { s with
    pool := { s.pool with refillPending := refillFlag s.cfg s.pool },
    trace := if refillDue s then .refillScheduled :: s.trace else s.trace } := by
  unfold refillCheck
  split
  · rename_i h
    have hflag : refillFlag s.cfg s.pool = true := by
      simp only [refillDue, Bool.and_eq_true] at h
      simp [refillFlag, h.1]
    rw [hflag]
    rfl
  · rename_i h
    have hflag : refillFlag s.cfg s.pool = s.pool.refillPending := by
      cases hp : s.pool.refillPending <;> simp_all [refillDue, refillFlag]
    rw [hflag]

/-- `RX.DRAIN` where its precondition holds. -/
theorem exec_rxDrain_ready (h : DrainReady s) (b : BitVec 24) : exec (.rxDrain b) s =
    andThen (drainLoop (drainTurns (budgetOf b) s) (s.setResult (.count 0))) (drainEnd (budgetOf b)) := by
  obtain ⟨he, hr, hf, -, -⟩ := h
  change drainIfEnabled (budgetOf b) s = _
  simp only [drainIfEnabled, drain, he, hr, hf, Bool.and_self, if_true]

/-- A walk with a budget ends with the refill check. -/
theorem exec_rxDrain_budget (h : DrainReady s) {b : BitVec 24} (hb : b ≠ 0xFFFFFF#24) : exec (.rxDrain b) s =
    andThen (drainLoop b.toNat (s.setResult (.count 0))) fun t => .next (refillCheck t) := by
  have hbudget : budgetOf b = some b.toNat := if_neg hb
  rw [exec_rxDrain_ready h, hbudget]
  rfl

/-- A walk that stops at once runs the refill check alone. -/
theorem exec_rxDrain_stops (h : DrainReady s) {b : BitVec 24} (hb : b = 0#24 ∨ isUpdated s.cfg (rrdFlagWord s) = false) :
    exec (.rxDrain b) s = .next (refillCheck (s.setResult (.count 0))) := by
  obtain rfl | hu := hb
  · rw [exec_rxDrain_budget h (by decide)]
    rfl
  · obtain ⟨-, -, -, hd, hc⟩ := id h
    have hmore : moreToCome (s.setResult (.count 0)) = false := by
      unfold moreToCome
      exact Bool.or_eq_false_iff.2 ⟨hu, by simp [hc]⟩
    rw [exec_rxDrain_ready h, drainLoop_not_ready (s := s.setResult (.count 0)) hd hu, andThen_next, drainEnd, hmore]
    simp

/-- A frame of a protocol 30_encoding.md R115 gives no checksum has none. -/
theorem csumValid_other (c : Cfg) {pid : BitVec 8} (err : Word) (h : pid ∉ [1#8, 2#8, 3#8, 4#8, 5#8]) :
    csumValid c pid err = 0#5 := by
  have hne : ∀ k ∈ [1#8, 2#8, 3#8, 4#8, 5#8], pid.toNat ≠ k.toNat := fun k hk hn => h (BitVec.eq_of_toNat_eq hn ▸ hk)
  simp only [List.forall_mem_cons, BitVec.reduceToNat] at hne
  unfold csumValid
  split <;> simp_all

/-- A flag of the set that an error takes away. -/
theorem getElem_unless (err : Bool) (flag : BitVec 5) {i : Nat} (hi : i < 5) :
    (if err then 0#5 else flag)[i] = (flag[i] && !err) := by
  cases err <;> simp

theorem swap16_swap16 (v : Half) : swap16 (swap16 v) = v := by
  rw [swap16, swap16, BitVec.extractLsb'_append_eq_right, BitVec.extractLsb'_append_eq_left,
    BitVec.extractLsb'_append_extractLsb'_eq_extractLsb' (by rfl)]
  exact BitVec.extractLsb'_eq_self

/-- The tag comes back from the field it was put in, in either byte order (41_transmit.md R165, 42_receive.md R197). -/
theorem vlanMeta_vlanField (c : Cfg) (tag : Half) : vlanMeta c true (vlanField c (some tag)) = some tag := by
  cases hs : c.vlanSwap <;> simp [vlanMeta, vlanField, hs, swap16_swap16]

end Sys2Proof.Machine

open Sys2Proof Sys2Proof.Machine

/-- Settles O22: no completion is taken, and the refill check is all there is left (`refillCheck_eq`). -/
theorem drainStopsAtNotReady : Obligations.DrainStopsAtNotReady := by
  unfold Obligations.DrainStopsAtNotReady
  intro s b h hb
  rw [exec_rxDrain_stops h hb, refillCheck_eq]
  rfl

/-- Settles O29: protocol by protocol, and the tag both ways. -/
theorem checksumValidityAndVlanTag : Obligations.ChecksumValidityAndVlanTag := by
  unfold Obligations.ChecksumValidityAndVlanTag
  intro c pid err tag ipok l4ok
  have hnone : vlanMeta c false tag = none := rfl
  have hsome : vlanMeta c true tag = some (if c.vlanSwap then tag.extractLsb' 0 8 ++ tag.extractLsb' 8 8 else tag) := rfl
  have hback := vlanMeta_vlanField c tag
  by_cases hpid : pid ∈ [1#8, 2#8, 3#8, 4#8, 5#8]
  case neg =>
    rw [csumValid_other c err hpid]
    simp only [List.mem_cons, List.not_mem_nil, or_false, not_or] at hpid
    simp [hpid, hnone, hback, hsome]
  case pos =>
    simp only [List.mem_cons, List.not_mem_nil, or_false] at hpid
    obtain rfl | rfl | rfl | rfl | rfl := hpid <;>
      simp [csumValid, getElem_unless, csIp4, csTcp4, csUdp4, csTcp6, csUdp6, hnone, hback, hsome, ipok, l4ok]
end

section
/-! SUPPORT. O23, O24: one completion judged and recycled (42_receive.md R193 to R199). -/

namespace Sys2Proof.Machine

variable {s t u : State}

/-! ### What judging a completion leaves alone -/

/-- What becomes of a frame before its descriptor is recycled writes the tracking array, the pool, memory, the receive counters,
the result, the record, and of the environment the allocator's answers and the regions given out (R193 to R198); nothing else. -/
structure JudgedFrom (s u : State) : Prop where
  frame : SameButRx u s
  rx : u.rx = { s.rx with mbuf := u.rx.mbuf }
  mac : u.mac = s.mac
  late : u.late = s.late
  posted : u.posted = s.posted
  env : u.env = { s.env with alloc := u.env.alloc, draws := u.env.draws, live := u.env.live, nextBuf := u.env.nextBuf }
  acts : s.trace <:+ u.trace

theorem SameButRx.cfg_eq (h : SameButRx t s) : t.cfg = s.cfg := h.1

theorem SameButRx.trans (h' : SameButRx u t) (h : SameButRx t s) : SameButRx u s := by
  simp only [SameButRx] at *
  simp [h', h]

theorem JudgedFrom.refl (s : State) : JudgedFrom s s := by
  refine ⟨?_, rfl, rfl, rfl, rfl, rfl, List.suffix_refl _⟩
  simp [SameButRx]

theorem JudgedFrom.trans (h : JudgedFrom s t) (h' : JudgedFrom t u) : JudgedFrom s u where
  frame := h'.frame.trans h.frame
  rx := h'.rx.trans (by rw [h.rx])
  mac := h'.mac.trans h.mac
  late := h'.late.trans h.late
  posted := h'.posted.trans h.posted
  env := h'.env.trans (by rw [h.env])
  acts := h.acts.trans h'.acts

theorem judgedFrom_answers {e : Env} (he : e = { s.env with alloc := e.alloc, draws := e.draws }) :
    JudgedFrom s (s.setEnv e) := by
  obtain ⟨alloc, dma, hw, phy, outbound, during, draws, live, nextBuf, resumable, offered, ceaseless, slowBus⟩ := e
  simp only [Env.mk.injEq] at he
  obtain ⟨-, rfl, rfl, rfl, rfl, rfl, -, rfl, rfl, rfl, rfl, rfl, rfl⟩ := he
  exact ⟨by simp [SameButRx], rfl, rfl, rfl, rfl, rfl, List.suffix_refl _⟩

theorem judgedFrom_takeBuf (n : Nat) (a : BufAnswer) (s : State) : JudgedFrom s (takeBuf n a s) :=
  ⟨by simp [SameButRx, takeBuf, takeRegion], rfl, rfl, rfl, rfl, rfl, List.suffix_refl _⟩

theorem judgedFrom_post (i : Half) (b : Buf) (s : State) : JudgedFrom s (post i b s) :=
  ⟨by simp [SameButRx], rfl, rfl, rfl, rfl, rfl, List.suffix_refl _⟩

theorem judgedFrom_copyInto (c b : Buf) (d : Nat) (s : State) : JudgedFrom s (copyInto c b d s) :=
  ⟨by simp [SameButRx], rfl, rfl, rfl, rfl, rfl, List.suffix_refl _⟩

theorem judgedFrom_setPool (p : Pool) (s : State) : JudgedFrom s (s.setPool p) :=
  ⟨by simp [SameButRx], rfl, rfl, rfl, rfl, rfl, List.suffix_refl _⟩

theorem judgedFrom_freeAll (l : List Buf) (s : State) : JudgedFrom s (freeAll l s) := by
  rw [freeAll_eq]
  exact ⟨by simp [SameButRx], rfl, rfl, rfl, rfl, rfl, List.suffix_append _ _⟩

theorem judgedFrom_acquireSpare (i : Half) (d : Nat) (b : Buf) (s : State) : JudgedFrom s (acquireSpare i d b s).2 := by
  unfold acquireSpare
  cases s.pool.spare with
  | nil => exact .refl s
  | cons p rest =>
    have hpool := judgedFrom_setPool { s.pool with spare := rest } s
    dsimp only
    cases s.cfg.spareMode with
    | copyIntoSpare => exact hpool.trans (judgedFrom_copyInto p b d _)
    | swapInSpare => exact hpool.trans (judgedFrom_post i p _)

theorem judgedFrom_acquire (i : Half) (d : Nat) (b : Buf) (s : State) : JudgedFrom s (acquire i d b s).2 := by
  obtain ⟨e, he, ⟨a, -, h⟩ | ⟨a, -, h⟩ | h⟩ := acquire_cases i d b s <;> rw [h] <;> have henv := judgedFrom_answers he
  · exact (henv.trans (judgedFrom_takeBuf _ a _)).trans (judgedFrom_post i _ _)
  · exact (henv.trans (judgedFrom_takeBuf _ a _)).trans (judgedFrom_copyInto _ b d _)
  · exact henv.trans (judgedFrom_acquireSpare i d b _)

/-- An assembled or a lost frame writes none of it, no counter and no result. -/
theorem judgedFrom_assemble (i : Half) (n len : Nat) (s : State) :
    (assemble i n len s).Leaves (fun u => JudgedFrom s u ∧ u.stats = s.stats ∧ u.result = s.result) True :=
  assemble_leaves (R := fun _ => True) (fun _ _ _ => trivial) (fun _ _ _ _ _ => trivial)
    (fun u i d b ⟨hu, hs, hr⟩ _ => ⟨hu.trans (judgedFrom_acquire i d b u), by simpa using hs, by simpa using hr⟩)
    (fun l u ⟨hu, hs, hr⟩ => ⟨hu.trans (judgedFrom_freeAll l u), by simpa using hs, by simpa using hr⟩) n len trivial
    ⟨.refl s, rfl, rfl⟩

theorem judgedFrom_raise {e : CoreEvent} (he : e = .rxLength ∨ e = .rxError ∨ e = .rxResource) (s : State) :
    JudgedFrom s (raise e s) := by
  obtain rfl | rfl | rfl := he <;>
    exact ⟨by simp [SameButRx, raise, countEvent], rfl, rfl, rfl, rfl, rfl, List.suffix_cons _ _⟩

theorem judgedFrom_deliver (k : Completion) (l : List Buf) (s : State) : JudgedFrom s (deliver k l s) :=
  ⟨by simp [SameButRx, deliver], rfl, rfl, rfl, rfl, rfl, List.suffix_cons _ _⟩

/-! ### The recycle step (R199) -/

theorem regWrite_rfdPidx (v : Half) (s : State) : regWrite .rfdPidx (v.setWidth 32) s = { s with
    late := lateAfterBell s s.late, posted := postedAfter .rx s, mac := { s.mac with regs := { s.mac.regs with rfdPidx := v } },
    trace := .regWrite s.cfg.regmap.rfdPidx.offset s.cfg.regmap.rfdPidx.width (v.setWidth 32) :: s.trace } := by
  simp [regWrite, postReg, postBell, regStore, regInfo, State.setMac, State.setLate, State.setPosted, State.emit]

theorem recycle_eq (k : Completion) (w : Word) (s : State) : recycle k w s = { s with
    mem := store32 s.mem (rrdFlagAddr s) (w &&& ~~~bitWord s.cfg.layout.updated),
    rx := { s.rx with next := inc s.rx.next 1 s.cfg.nRrd, free := inc k.start k.count s.cfg.nRfd },
    late := lateAfterBell s (fenced s.posted.length s.late), posted := postedAfter .rx s,
    mac := { s.mac with regs := { s.mac.regs with rfdPidx := inc k.start (k.count - 1) s.cfg.nRfd } },
    trace := .regWrite s.cfg.regmap.rfdPidx.offset s.cfg.regmap.rfdPidx.width
      ((inc k.start (k.count - 1) s.cfg.nRfd).setWidth 32) :: .fence :: s.trace } :=
  regWrite_rfdPidx _ _

/-! ### The outcomes of a completion (R193 to R198) -/

/-- A fragmented frame where reassembly is not supported (R193). -/
theorem judge_fragmented {k : Completion} (h : 1 < k.count ∧ s.cfg.jumboSupport = false) :
    judge k s = .next (raise .rxLength s) := if_pos h

/-- A frame with an error of the drop mask (R194). -/
theorem judge_error {k : Completion} (hj : ¬(1 < k.count ∧ s.cfg.jumboSupport = false))
    (he : k.err &&& s.cfg.rxDropMask ≠ 0#32) : judge k s = .next (raise .rxError s) := by
  rw [judge, if_neg hj, if_pos he]

section
variable {k : Completion} (hj : ¬(1 < k.count ∧ s.cfg.jumboSupport = false)) (he : k.err &&& s.cfg.rxDropMask = 0#32)
  (hf : fits k s.cfg = true)
include hj he hf

/-- A good frame is delivered as it was assembled (R195, R198). -/
theorem judge_chain {l : List Buf} (ha : assemble k.start k.count (k.len - s.cfg.crcLen) s = .chain l u) :
    judge k s = .next (deliver k l u) := by
  rw [judge, if_neg hj, if_neg (not_not.2 he), if_pos hf, ha]

/-- A good frame for which no buffer is found (R198). -/
theorem judge_lost (ha : assemble k.start k.count (k.len - s.cfg.crcLen) s = .lost u) :
    judge k s = .next (raise .rxResource u) := by
  rw [judge, if_neg hj, if_neg (not_not.2 he), if_pos hf, ha]

end

/-! ### A walk with budget 1 -/

theorem judgedFrom_setResult (r : Result) (s : State) : JudgedFrom s (s.setResult r) :=
  ⟨by simp [SameButRx], rfl, rfl, rfl, rfl, rfl, List.suffix_refl _⟩

/-- `s` after its one completion left `u` when judged: recycled, and the pool checked. -/
def afterOne (s u : State) : State := refillCheck (recycle (rrdCompletion s) (rrdFlagWord s) u)

theorem exec_rxDrain_judged (h : DrainReady s) (hc : CompletionReady s)
    (hj : judge (rrdCompletion s) (s.setResult (.count 0)) = .next u) : exec (.rxDrain 1#24) s = .next (afterOne s u) := by
  obtain ⟨hu, hp⟩ := hc
  have hone : drainOne (s.setResult (.count 0)) = .next (recycle (rrdCompletion s) (rrdFlagWord s) u) := by
    have hp' : contractProblem (rrdCompletion (s.setResult (.count 0))) (s.setResult (.count 0)) = none := hp
    have hj' : judge (rrdCompletion (s.setResult (.count 0))) (s.setResult (.count 0)) = .next u := hj
    rw [drainOne, hp']
    simp only [hj', andThen_next]
    rfl
  rw [exec_rxDrain_one h hu, hone, andThen_next, afterOne]

@[simp] theorem afterOne_judged (s u : State) :
    (afterOne s u).result = u.result ∧ (afterOne s u).stats = u.stats ∧ (afterOne s u).env = u.env ∧
    (afterOne s u).rx.mbuf = u.rx.mbuf ∧ (afterOne s u).rx.rrdPhys = u.rx.rrdPhys ∧
    (afterOne s u).rx.rfdPhys = u.rx.rfdPhys ∧ (afterOne s u).pool.spare = u.pool.spare := by
  rw [afterOne, refillCheck_eq, recycle_eq]
  exact ⟨rfl, rfl, rfl, rfl, rfl, rfl, rfl⟩

section
variable (hj : JudgedFrom s u)
include hj

theorem JudgedFrom.rrdFlagAddr_eq : rrdFlagAddr u = rrdFlagAddr s := by
  simp only [rrdFlagAddr, rrdAddr]
  rw [hj.rx, hj.frame.cfg_eq]

theorem afterOne_mem : (afterOne s u).mem =
    store32 u.mem (rrdFlagAddr s) (rrdFlagWord s &&& ~~~bitWord s.cfg.layout.updated) := by
  rw [afterOne, refillCheck_eq, recycle_eq, hj.rrdFlagAddr_eq, hj.frame.cfg_eq]

theorem afterOne_recycled (hm : Memory.wf u.mem = true) : Recycled (afterOne s u) s := by
  have hcfg : u.cfg = s.cfg := hj.frame.cfg_eq
  have hnext : u.rx.next = s.rx.next := by rw [hj.rx]
  refine ⟨by rw [afterOne_mem hj, load32_store32 _ _ hm], ?_⟩
  rw [afterOne, refillCheck_eq, recycle_eq, hcfg, hnext]
  exact ⟨rfl, rfl, rfl⟩

/-- Memory is otherwise as judging the completion left it. -/
theorem afterOne_sameBytes (hm : Memory.wf u.mem = true) :
    SameBytesOutside (afterOne s u) u [{ base := rrdFlagAddr s, size := 4 }] := by
  intro a ha
  rw [afterOne_mem hj, readByte_store32_outside _ hm (ha _ (List.mem_singleton_self _))]

theorem afterOne_frame : (afterOne s u).pool.refillPending = refillFlag s.cfg u.pool ∧
    (afterOne s u).late = lateAfterBell s (fenced s.posted.length s.late) ∧ (afterOne s u).posted = postedAfter .rx s ∧
    SameButRx (afterOne s u) s ∧
    (afterOne s u).mac = { s.mac with regs := { s.mac.regs with rfdPidx := (afterOne s u).mac.regs.rfdPidx } } := by
  have hcfg : u.cfg = s.cfg := hj.frame.cfg_eq
  have hslow : u.env.slowBus = s.env.slowBus := by rw [hj.env]
  have hframe := hj.frame
  simp only [SameButRx] at hframe
  simp only [afterOne, refillCheck_eq, recycle_eq, SameButRx, lateAfterBell, postedAfter, bellValue, hj.late, hj.posted, hj.mac,
    hslow, hcfg, hframe, and_self]

end

/-- The last act of judging the completion is one of the walk's. -/
theorem mem_newActs_afterOne {a : Act} {l : List Act} (hu : u.trace = a :: l) (hl : s.trace <:+ l) :
    a ∈ newActs (afterOne s u) s := by
  obtain ⟨before, rfl⟩ := hl
  obtain ⟨after, hafter⟩ : u.trace <:+ (afterOne s u).trace := by
    rw [afterOne, refillCheck_eq, recycle_eq]
    dsimp only
    split
    · exact ((List.suffix_cons _ _).trans (List.suffix_cons _ _)).trans (List.suffix_cons _ _)
    · exact (List.suffix_cons _ _).trans (List.suffix_cons _ _)
  have htrace : (afterOne s u).trace = ((after ++ a :: before).reverse).reverse ++ s.trace := by
    rw [List.reverse_reverse, ← hafter, hu]
    simp
  rw [newActs_of_trace htrace]
  simp

end Sys2Proof.Machine

open Sys2Proof Sys2Proof.Machine

/-- Settles O23: the completion is judged by raising one event, and recycled. -/
theorem drainDropsBadCompletions : Obligations.DrainDropsBadCompletions := by
  unfold Obligations.DrainDropsBadCompletions
  intro s hd hc hm hbad
  obtain ⟨e, he, hjudge, hstats⟩ : ∃ e, (e = .rxLength ∨ e = .rxError ∨ e = .rxResource) ∧
      judge (rrdCompletion s) (s.setResult (.count 0)) = .next (raise e (s.setResult (.count 0))) ∧
      countEvent e s.stats = if 1 < (rrdCompletion s).count ∧ s.cfg.jumboSupport = false
        then { s.stats with rxLenErr := s.stats.rxLenErr + 1 } else { s.stats with rxErr := s.stats.rxErr + 1 } := by
    by_cases hj : 1 < (rrdCompletion s).count ∧ s.cfg.jumboSupport = false
    · exact ⟨.rxLength, .inl rfl, judge_fragmented hj, (if_pos hj).symm⟩
    · exact ⟨.rxError, .inr (.inl rfl), judge_error hj (hbad.resolve_left hj), (if_neg hj).symm⟩
  have hu : JudgedFrom s (raise e (s.setResult (.count 0))) := (judgedFrom_setResult _ s).trans (judgedFrom_raise he _)
  obtain ⟨hpending, hlate, hposted, hframe, hmac⟩ := afterOne_frame hu
  refine ⟨_, exec_rxDrain_judged hd hc hjudge, ?_, ?_, afterOne_recycled hu hm, ?_, ?_, ?_, ?_, hpending, hlate, hposted,
      afterOne_sameBytes hu hm, ?_, hframe, hmac⟩
  case refine_2 => simpa [raise] using hstats
  all_goals simp

/-- Settles O24: the completion is judged by assembling its frame, and recycled. -/
theorem drainDeliversGoodFrames : Obligations.DrainDeliversGoodFrames := by
  unfold Obligations.DrainDeliversGoodFrames
  intro s l s1 hd hc hm hj he hf k hasm
  have hj' : ¬(1 < k.count ∧ (s.setResult (.count 0)).cfg.jumboSupport = false) := hj
  have hwf := assemble_wf (s := s.setResult (.count 0)) k.start k.count (k.len - s.cfg.crcLen) hm
  have hleaves := judgedFrom_assemble k.start k.count (k.len - s.cfg.crcLen) (s.setResult (.count 0))
  generalize hr : assemble k.start k.count (k.len - s.cfg.crcLen) (s.setResult (.count 0)) = r at hasm hwf hleaves ⊢
  obtain ⟨hm1, hs1, hstats1, hresult1⟩ : Memory.wf s1.mem = true ∧ JudgedFrom (s.setResult (.count 0)) s1 ∧
      s1.stats = s.stats ∧ s1.result = .count 0 := by
    obtain rfl | ⟨-, rfl⟩ := hasm <;> exact ⟨hwf, hleaves⟩
  have hfrom : JudgedFrom s s1 := (judgedFrom_setResult _ s).trans hs1
  obtain ⟨u, hjudge, hu, hrx, hpool, hmem, henv, hchain, hlost⟩ :
      ∃ u, judge k (s.setResult (.count 0)) = .next u ∧ JudgedFrom s1 u ∧ u.rx = s1.rx ∧ u.pool = s1.pool ∧
        u.mem = s1.mem ∧ u.env = s1.env ∧ (r = .chain l s1 → u = deliver k l s1) ∧ (r = .lost s1 → u = raise .rxResource s1) := by
    obtain rfl | ⟨-, rfl⟩ := hasm
    · exact ⟨_, judge_chain hj' he hf hr, judgedFrom_deliver k l s1, by simp⟩
    · exact ⟨_, judge_lost hj' he hf hr, judgedFrom_raise (.inr (.inr rfl)) s1, by simp⟩
  have hu' : JudgedFrom s u := hfrom.trans hu
  have hmu : Memory.wf u.mem = true := hmem ▸ hm1
  obtain ⟨hpending, hlate, hposted, hframe, hmac⟩ := afterOne_frame hu'
  have hbytes := afterOne_sameBytes hu' hmu
  rw [SameBytesOutside, hmem] at hbytes
  rw [hpool] at hpending
  refine ⟨_, exec_rxDrain_judged hd hc hjudge, afterOne_recycled hu' hmu, ?_, ?_, hpending, hbytes, ?_, hlate, hposted,
    hframe, hmac, fun h => ?_, fun h => ?_⟩
  · simp [hrx]
  · simp [hpool]
  · simp [henv]
  · obtain rfl := hchain h
    have hcfg : s1.cfg = s.cfg := hfrom.frame.cfg_eq
    refine ⟨by simp [deliver, hresult1, countOf], by simp [deliver, hstats1], mem_newActs_afterOne ?_ hfrom.acts⟩
    simp [deliver, hcfg, k]
  · obtain rfl := hlost h
    exact ⟨by simp [hresult1], by simp [raise, countEvent, hstats1]⟩
end

section
/-! SUPPORT. A run of ready completions (42_receive.md R199, R200): what the doorbells, the counters and the memory of a walk over
it come to. -/

namespace Sys2Proof.Machine

variable {s t u : State}

/-! ### Ring lengths (70_reset_and_hazards.md R286) -/

/-- A length the ring index arithmetic of R140 works over. -/
def RingLength (n : Nat) : Prop := ∃ e ≤ 16, n = 2 ^ e

theorem Cfg.ringLengths_of_valid {c : Cfg} (h : c.valid = true) : RingLength c.nRfd ∧ RingLength c.nRrd := by
  obtain ⟨⟨d, hd, hpow⟩, hrrd, -⟩ := Cfg.rx_of_valid h
  exact ⟨⟨d, by omega, hpow⟩, hrrd⟩

section
variable {n : Nat} (hn : RingLength n)
include hn

theorem RingLength.inc_inc (i : Half) (j k : Nat) : inc (inc i j n) k n = inc i (j + k) n := by
  obtain ⟨e, he, rfl⟩ := hn
  exact Machine.inc_inc he i j k

theorem RingLength.inc_zero {i : Half} (hi : i.toNat < n) : inc i 0 n = i := by
  obtain ⟨e, he, rfl⟩ := hn
  exact Machine.inc_zero he hi

theorem RingLength.toNat_inc_inj (i : Half) {j k : Nat} (hj : j < n) (hk : k < n) :
    (inc i j n).toNat = (inc i k n).toNat ↔ j = k := by
  obtain ⟨e, he, rfl⟩ := hn
  exact Machine.toNat_inc_inj he i hj hk

end

/-! ### The words of a completion descriptor (30_encoding.md R110, R111; log entry 3) -/

/-- The words the walker reads lie inside the descriptor. -/
structure RrdFits (l : Layout) : Prop where
  size : l.rrdSize ≤ 2 ^ 64
  w0 : l.rrdW0 + 4 ≤ l.rrdSize
  w2 : l.rrdW2 + 4 ≤ l.rrdSize
  w3 : l.rrdW3 + 4 ≤ l.rrdSize

theorem Cfg.rrdFits_of_valid {c : Cfg} (h : c.valid = true) : RrdFits c.layout := by
  obtain ⟨-, ⟨-, hring⟩, -⟩ := Cfg.ringBytes_of_valid h
  have hfit : bytesFit c.layout.rrdSize
      [(c.layout.rrdW0, 4), (c.layout.rrdW1, 4), (c.layout.rrdW2, 4), (c.layout.rrdW3, 4)] = true := by
    simp only [Cfg.valid, Cfg.layoutValid, Layout.placesValid, Bool.and_eq_true] at h
    tauto
  simp only [bytesFit, Bool.and_eq_true, decide_eq_true_eq, List.all_cons] at hfit
  obtain ⟨⟨-, ⟨h0, -⟩, -, ⟨h2, -⟩, ⟨h3, -⟩, -⟩, -⟩ := hfit
  exact ⟨(Nat.le_mul_of_pos_right _ (Cfg.nRrd_pos h)).trans hring, h0, h2, h3⟩

section
variable {c : Cfg} (hv : c.valid = true) {m k : Memory} {a : Addr}
  (h : ∀ x, inRange a c.layout.rrdSize x = true → readByte m x = readByte k x)
include hv h

/-- The walker reads alike in memories that agree in the descriptor. -/
theorem rrdWords_congr : readCompletion c m a = readCompletion c k a ∧
    load32 m (fieldAddr a c.layout.rrdW3) = load32 k (fieldAddr a c.layout.rrdW3) := by
  have hfit := Cfg.rrdFits_of_valid hv
  have hword {i : Nat} (hi : i + 4 ≤ c.layout.rrdSize) : load32 m (fieldAddr a i) = load32 k (fieldAddr a i) :=
    load32_congr fun x hx => h x (inRange_of_field hi hfit.size hx)
  rw [readCompletion, readCompletion, hword hfit.w0, hword hfit.w2, hword hfit.w3]
  exact ⟨rfl, rfl⟩

end

/-! ### The counts of a run -/

/-- The `j`-th completion of a run has an error of the drop mask (R194). -/
def isBad (s : State) (j : Nat) : Bool := (completionAt s j).err &&& s.cfg.rxDropMask != 0#32

/-- How many of the first `n` completions are delivered. -/
def goodCount (s : State) (n : Nat) : Nat := (List.range n).countP fun j => !isBad s j

theorem goodCount_succ (s : State) (n : Nat) : goodCount s (n + 1) = goodCount s n + if isBad s n then 0 else 1 := by
  rw [goodCount, List.range_succ, List.countP_append, List.countP_singleton, goodCount]
  cases isBad s n <;> rfl

theorem goodCount_mono {m n : Nat} (h : m ≤ n) : goodCount s m ≤ goodCount s n :=
  (List.range_sublist.2 h).countP_le

theorem goodCount_le (s : State) (n : Nat) : goodCount s n ≤ n :=
  (List.countP_le_length).trans_eq List.length_range

/-! ### The doorbells of a run (20_memory.md R89, R91) -/

/-- The free slot the `j`-th completion of a run names. -/
def freeSlot (s : State) (j : Nat) : Half := inc s.rx.free j s.cfg.nRfd

/-- The doorbell after `j` completions. -/
def bellAfter (s : State) (j : Nat) : Half := if j = 0 then s.mac.regs.rfdPidx else freeSlot s (j - 1)

/-- The late stores after `j` completions. -/
def lateAfterRun (s : State) (j : Nat) : List LateStore :=
  if j = 0 then s.late
  else if s.env.slowBus then fenced s.posted.length s.late
  else lateAfter (s.posted.length + j) (fenced s.posted.length s.late)

/-- The posted doorbell writes after `j` completions. -/
def postedAfterRun (s : State) (j : Nat) : List Posted :=
  if s.env.slowBus then s.posted ++ (List.range j).map fun i => { bell := .rx, before := bellAfter s i }
  else if j = 0 then s.posted else []

theorem lateAfterRun_succ {j : Nat} (hslow : u.env.slowBus = s.env.slowBus) (hlate : u.late = lateAfterRun s j)
    (hposted : u.posted = postedAfterRun s j) :
    lateAfterBell u (fenced u.posted.length u.late) = lateAfterRun s (j + 1) := by
  have hfenced := allFenced_fenced s.posted.length s.late
  rw [lateAfterBell, hslow, hlate, hposted, postedAfterRun, lateAfterRun, lateAfterRun, if_neg (Nat.succ_ne_zero j)]
  cases s.env.slowBus <;> rcases Nat.eq_zero_or_pos j with rfl | hj
  · rfl
  · simp only [Bool.false_eq_true, if_false, if_neg hj.ne', (hfenced.lateAfter _).fenced, lateAfter_lateAfter, List.length_nil]
    rw [Nat.zero_add, Nat.add_assoc]
  · simp
  · simp [hj.ne', hfenced.fenced]

theorem postedAfterRun_succ {j : Nat} (hslow : u.env.slowBus = s.env.slowBus) (hposted : u.posted = postedAfterRun s j)
    (hbell : u.mac.regs.rfdPidx = bellAfter s j) : postedAfter .rx u = postedAfterRun s (j + 1) := by
  rw [postedAfter, hslow, hposted, bellValue, hbell, postedAfterRun, postedAfterRun]
  cases s.env.slowBus <;> simp [List.range_succ]

/-! ### The memory of a run -/

/-- What a walk may store to after it has judged `i` completions and recycled `j` of them. -/
def runRegions (s : State) (ps : List BufAnswer) (i j : Nat) : List Region :=
  (List.range j).map (flagRegion s) ++ bufRegions s (ps.take (goodCount s i)) ++
    ((List.range i).filter fun m => !isBad s m).map fun m => rfdRegion s (freeSlot s m)

theorem mem_runRegions {ps : List BufAnswer} {i j : Nat} {r : Region} : r ∈ runRegions s ps i j ↔
    (∃ m < j, flagRegion s m = r) ∨ r ∈ bufRegions s (ps.take (goodCount s i)) ∨
      ∃ m < i, isBad s m = false ∧ rfdRegion s (freeSlot s m) = r := by
  simp [runRegions, and_assoc]

theorem runRegions_mono {ps : List BufAnswer} {i j i' j' : Nat} (hi : i ≤ i') (hj : j ≤ j') :
    runRegions s ps i j ⊆ runRegions s ps i' j' := by
  intro r hr
  rw [mem_runRegions] at hr ⊢
  obtain ⟨m, hm, rfl⟩ | hr | ⟨m, hm, hb, rfl⟩ := hr
  · exact .inl ⟨m, hm.trans_le hj, rfl⟩
  · exact .inr (.inl (List.map_subset _ (List.take_subset_take_left _ (goodCount_mono hi)) hr))
  · exact .inr (.inr ⟨m, hm.trans_le hi, hb, rfl⟩)

/-- The `j`-th completion descriptor as one of its ring. -/
theorem rrdSlot_eq (s : State) (j : Nat) :
    rrdSlot s j = (ringSlot s.rx.rrdPhys s.cfg.layout.rrdSize (inc s.rx.next j s.cfg.nRrd).toNat).base := by
  simp [rrdSlot, rrdSlotAddr, ringSlot]

/-- A run of `n` ready single-buffer completions, with a replacement for the buffer of each good one. -/
structure ReadyRun (s : State) (n : Nat) (ps : List BufAnswer) (rest : List (Option BufAnswer)) : Prop where
  drain : DrainReady s
  valid : s.cfg.valid = true
  wf : Memory.wf s.mem = true
  next : s.rx.next.toNat < s.cfg.nRrd
  free : s.rx.free.toNat < s.cfg.nRfd
  inside : n ≤ s.cfg.nRrd
  length : s.rx.mbuf.length = s.cfg.nRfd
  filled : ∀ e ∈ s.rx.mbuf, e ≠ none
  updated : ∀ j < n, isUpdated s.cfg (load32 s.mem (rrdFlag s j)) = true
  count : ∀ j < n, (completionAt s j).count = 1
  start : ∀ j < n, (completionAt s j).start = freeSlot s j
  crc : ∀ j < n, s.cfg.crcLen ≤ (completionAt s j).len
  size : ∀ j < n, isBad s j = false → 0 < (completionAt s j).len ∧ (completionAt s j).len ≤ s.cfg.rxBufSize
  alloc : s.env.alloc = ps.map some ++ rest
  given : ps.length = goodCount s n
  answers : RxAnswers s (takenRegions s) ps
  live : ∀ r ∈ ringRegions s, r ∈ s.env.live
  apart : (ringRegions s).Pairwise fun p q => apart p q = true

section
variable {n : Nat} {ps : List BufAnswer} {rest : List (Option BufAnswer)} (h : ReadyRun s n ps rest)
include h

theorem ReadyRun.freeSlot_inside (j : Nat) : (freeSlot s j).toNat < s.cfg.nRfd := inc_lt (Cfg.nRfd_pos h.valid)

/-- A byte of the completion ring is in no buffer the walk is given and in no free descriptor. -/
theorem ReadyRun.rrd_ring_apart {x : Addr} (hx : inRange s.rx.rrdPhys (rrdBytes s.cfg) x = true) :
    (∀ r ∈ bufRegions s ps, inRange r.base r.size x = false) ∧
      ∀ j, inRange (rfdRegion s (freeSlot s j)).base (rfdRegion s (freeSlot s j)).size x = false := by
  refine ⟨fun r hr => ?_, fun j => ?_⟩
  · have hlive : { base := s.rx.rrdPhys, size := rrdBytes s.cfg } ∈ takenRegions s :=
      List.mem_append_left _ (h.live _ (by simp [ringRegions]))
    have hapart := apart_of_freshRegions h.answers.1 hr hlive
    rw [apart_comm] at hapart
    exact apart_not_inRange hapart hx
  · have hapart := h.apart
    simp only [ringRegions, List.pairwise_cons, List.mem_cons, List.not_mem_nil, or_false, forall_eq_or_imp, forall_eq] at hapart
    have hout := apart_not_inRange hapart.2.1 hx
    by_contra hin
    have hfield : inRange (rfdField s.cfg s.rx.rfdPhys (freeSlot s j).toNat).base 8 x = true := by
      simpa [rfdField, rfdRegion, rfdSlot] using hin
    have hring := inRange_ring_of_rfdField h.valid (h.freeSlot_inside j) hfield
    exact absurd hring (Bool.eq_false_iff.1 hout)

theorem ReadyRun.rrd_slot_in_ring {j : Nat} {x : Addr} (hx : inRange (rrdSlot s j) s.cfg.layout.rrdSize x = true) :
    inRange s.rx.rrdPhys (rrdBytes s.cfg) x = true := by
  obtain ⟨-, ⟨hn, hsize⟩, -⟩ := Cfg.ringBytes_of_valid h.valid
  rw [rrdSlot_eq] at hx
  exact inRange_ring_of_slot hn hsize (inc_lt (Cfg.nRrd_pos h.valid)) hx

/-- The descriptors of a run share no byte. -/
theorem ReadyRun.rrd_slot_disjoint {i j : Nat} {x : Addr} (hi : i < n) (hj : j < n) (hij : i ≠ j)
    (hx : inRange (rrdSlot s i) s.cfg.layout.rrdSize x = true) : inRange (rrdSlot s j) s.cfg.layout.rrdSize x = false := by
  obtain ⟨-, ⟨hn, hsize⟩, -⟩ := Cfg.ringBytes_of_valid h.valid
  have hpos := Cfg.nRrd_pos h.valid
  have hinj := (Cfg.ringLengths_of_valid h.valid).2.toNat_inc_inj s.rx.next (hi.trans_le h.inside) (hj.trans_le h.inside)
  rw [rrdSlot_eq] at hx ⊢
  exact ringSlot_disjoint hn hsize (inc_lt hpos) (inc_lt hpos) (mt hinj.1 hij) hx

/-- The UPDATED word of a completion is in its descriptor. -/
theorem ReadyRun.flag_in_slot {j : Nat} {x : Addr} (hx : inRange (rrdFlag s j) 4 x = true) :
    inRange (rrdSlot s j) s.cfg.layout.rrdSize x = true :=
  have hfit := Cfg.rrdFits_of_valid h.valid
  inRange_of_field hfit.w3 hfit.size hx

theorem ReadyRun.flag_disjoint {i j : Nat} {x : Addr} (hi : i < n) (hj : j < n) (hij : i ≠ j)
    (hx : inRange (rrdSlot s i) s.cfg.layout.rrdSize x = true) : inRange (rrdFlag s j) 4 x = false :=
  have hfit := Cfg.rrdFits_of_valid h.valid
  not_inRange_field hfit.w3 hfit.size (h.rrd_slot_disjoint hi hj hij hx)

/-- A walk has stored nothing to the descriptors it has not recycled. -/
theorem ReadyRun.slot_not_walked {i j k : Nat} {x : Addr} (hj : j < n) (hk : k ≤ j)
    (hx : inRange (rrdSlot s j) s.cfg.layout.rrdSize x = true) :
    ∀ r ∈ runRegions s ps i k, inRange r.base r.size x = false := by
  obtain ⟨hbufs, hfields⟩ := h.rrd_ring_apart (h.rrd_slot_in_ring hx)
  intro r hr
  obtain ⟨m, hm, rfl⟩ | hr | ⟨m, -, -, rfl⟩ := mem_runRegions.1 hr
  · exact h.flag_disjoint hj (by omega) (by omega) hx
  · exact hbufs r (List.map_subset _ (List.take_subset _ _) hr)
  · exact hfields m

end

/-! ### A single-buffer frame swapped out (43_buffer_pool.md R221, R225) -/

/-- `s` with a new buffer for the answer `a` swapped in at slot `i`. -/
def swappedIn (i : Half) (a : BufAnswer) (rest : List (Option BufAnswer)) (s : State) : State :=
  post i (newBuf s.cfg.rxBufSize a s) (takeBuf s.cfg.rxBufSize a (s.setEnv { s.env with alloc := rest }))

theorem assemble_one {i : Half} {len : Nat} {b : Buf} {a : BufAnswer} {rest : List (Option BufAnswer)}
    (hb : postedBuf s i = some b) (halloc : s.env.alloc = some a :: rest)
    (hfits : bufAnswerFits true s.cfg.rxBufSize a s = true) :
    assemble i 1 len s = .chain [{ b with len := len }] (swappedIn i a rest s) := by
  have hget : acquire i len b s = (some { b with len := len }, swappedIn i a rest s) := by
    rw [acquire, rxBufAlloc, bufAlloc_some halloc hfits]
    rfl
  simp only [assemble, if_true, hb, hget]

/-- The address of the new buffer stands in the free descriptor of the slot. -/
def swapMem (c : Cfg) (slot : Addr) (a : BufAnswer) (m : Memory) : Memory :=
  store64 (fillBuf c.rxBufSize a m) slot a.phys

@[simp] theorem swappedIn_fields (i : Half) (a : BufAnswer) (rest : List (Option BufAnswer)) (s : State) :
    (swappedIn i a rest s).pool = s.pool ∧ (swappedIn i a rest s).stats = s.stats ∧
    (swappedIn i a rest s).result = s.result ∧ (swappedIn i a rest s).trace = s.trace ∧
    (swappedIn i a rest s).rx.mbuf = s.rx.mbuf.set i.toNat (some (newBuf s.cfg.rxBufSize a s)) ∧
    (swappedIn i a rest s).mem = swapMem s.cfg (rfdSlot s i) a s.mem ∧
    (swappedIn i a rest s).env = { s.env with
      alloc := rest, live := answerRegion s.cfg.rxBufSize a :: s.env.live, nextBuf := s.env.nextBuf + 1 } := by
  simp [swappedIn, post, takeBuf, takeRegion, swapMem, fillBuf, rfdSlot, newBuf]

theorem judgedFrom_swappedIn (i : Half) (a : BufAnswer) (rest : List (Option BufAnswer)) (s : State) :
    JudgedFrom s (swappedIn i a rest s) :=
  ((judgedFrom_answers rfl).trans (judgedFrom_takeBuf _ a _)).trans (judgedFrom_post i _ _)

theorem swapMem_wf {m : Memory} (c : Cfg) (slot : Addr) (a : BufAnswer) (hm : Memory.wf m = true) :
    Memory.wf (swapMem c slot a m) = true := store64_wf _ _ (fillBuf_wf _ a hm)

theorem readByte_swapMem_outside {m : Memory} {c : Cfg} {slot x : Addr} {a : BufAnswer} (hm : Memory.wf m = true)
    (hbuf : inRange (answerRegion c.rxBufSize a).base (answerRegion c.rxBufSize a).size x = false)
    (hslot : inRange slot 8 x = false) : readByte (swapMem c slot a m) x = readByte m x := by
  rw [swapMem, readByte_store64_outside _ (fillBuf_wf _ a hm) hslot, readByte_fillBuf_outside hm hbuf]

/-! ### The memory and the tracking array of a walk -/

/-- Host memory after a walk has judged `i` completions of a run and recycled `j` of them. -/
structure RunMemory (s : State) (ps : List BufAnswer) (i j : Nat) (m : Memory) : Prop where
  wf : Memory.wf m = true
  cleared : ∀ k < j, load32 m (rrdFlag s k) = load32 s.mem (rrdFlag s k) &&& ~~~bitWord s.cfg.layout.updated
  bytes : ∀ x, (∀ r ∈ runRegions s ps i j, inRange r.base r.size x = false) → readByte m x = readByte s.mem x

theorem RunMemory.judge_bad {ps : List BufAnswer} {i j : Nat} {m : Memory} (hm : RunMemory s ps i j m) :
    RunMemory s ps (i + 1) j m :=
  ⟨hm.wf, hm.cleared, fun x hx => hm.bytes x fun r hr => hx r (runRegions_mono (Nat.le_succ i) le_rfl hr)⟩

/-- The tracking array after a walk has judged `i` completions of a run. -/
structure RunSlots (s : State) (i : Nat) (l : List (Option Buf)) : Prop where
  length : l.length = s.rx.mbuf.length
  filled : ∀ e ∈ l, e ≠ none
  others : ∀ k, (∀ m < i, isBad s m = false → k ≠ (freeSlot s m).toNat) → l[k]? = s.rx.mbuf[k]?

theorem RunSlots.judge_bad {i : Nat} {l : List (Option Buf)} (hl : RunSlots s i l) : RunSlots s (i + 1) l :=
  ⟨hl.length, hl.filled, fun k hk => hl.others k fun m hm => hk m (hm.trans (Nat.lt_succ_self i))⟩

theorem RunSlots.judge_good {i : Nat} {l : List (Option Buf)} (hl : RunSlots s i l) (hb : isBad s i = false) (b : Buf) :
    RunSlots s (i + 1) (l.set (freeSlot s i).toNat (some b)) where
  length := List.length_set.trans hl.length
  filled e he := (List.mem_or_eq_of_mem_set he).elim (hl.filled e) fun he => by simp [he]
  others k hk := by
    rw [List.getElem?_set_ne (hk i (Nat.lt_succ_self i) hb).symm]
    exact hl.judge_bad.others k hk

section
variable {n : Nat} {ps : List BufAnswer} {rest : List (Option BufAnswer)} (h : ReadyRun s n ps rest)
include h

/-- The replacement for the buffer of the next completion, if it is good. -/
theorem ReadyRun.next_answer {j : Nat} (hj : j < n) (hb : isBad s j = false) :
    ∃ a ∈ ps, ps.take (goodCount s (j + 1)) = ps.take (goodCount s j) ++ [a] ∧
      ps.drop (goodCount s j) = a :: ps.drop (goodCount s (j + 1)) := by
  have hgood : goodCount s (j + 1) = goodCount s j + 1 := by simp [goodCount_succ, hb]
  have hlt : goodCount s j < ps.length := by
    have hmono := goodCount_mono (s := s) (m := j + 1) hj
    have hgiven := h.given
    omega
  exact ⟨ps[goodCount s j], List.getElem_mem hlt, by rw [hgood, List.take_append_getElem],
    by rw [hgood, List.drop_eq_getElem_cons hlt]⟩

theorem ReadyRun.memory_judge_good {j : Nat} {m : Memory} {a : BufAnswer} (hm : RunMemory s ps j j m) (hb : isBad s j = false)
    (ha : a ∈ ps) (htake : ps.take (goodCount s (j + 1)) = ps.take (goodCount s j) ++ [a]) :
    RunMemory s ps (j + 1) j (swapMem s.cfg (rfdSlot s (freeSlot s j)) a m) where
  wf := swapMem_wf _ _ a hm.wf
  cleared k hk := by
    rw [← hm.cleared k hk]
    refine load32_congr fun x hx => ?_
    obtain ⟨hbufs, hfields⟩ := h.rrd_ring_apart (h.rrd_slot_in_ring (h.flag_in_slot hx))
    exact readByte_swapMem_outside hm.wf (hbufs _ (List.mem_map_of_mem ha)) (hfields j)
  bytes x hx := by
    have hbuf := hx (answerRegion s.cfg.rxBufSize a)
      (mem_runRegions.2 (.inr (.inl (htake ▸ List.mem_map_of_mem (by simp)))))
    have hfield : inRange (rfdSlot s (freeSlot s j)) 8 x = false :=
      hx (rfdRegion s (freeSlot s j)) (mem_runRegions.2 (.inr (.inr ⟨j, Nat.lt_succ_self j, hb, rfl⟩)))
    rw [readByte_swapMem_outside hm.wf hbuf hfield]
    exact hm.judge_bad.bytes x hx

theorem ReadyRun.memory_recycle {i j : Nat} {m : Memory} (hm : RunMemory s ps i j m) (hj : j < n) : RunMemory s ps i (j + 1)
    (store32 m (rrdFlag s j) (load32 s.mem (rrdFlag s j) &&& ~~~bitWord s.cfg.layout.updated)) where
  wf := store32_wf _ _ hm.wf
  cleared k hk := by
    by_cases hkj : k = j
    · rw [hkj, load32_store32 _ _ hm.wf]
    · rw [← hm.cleared k (by omega)]
      refine load32_congr fun x hx => readByte_store32_outside _ hm.wf ?_
      exact h.flag_disjoint (i := k) (by omega) hj hkj (h.flag_in_slot hx)
  bytes x hx := by
    have hflag : inRange (rrdFlag s j) 4 x = false :=
      hx (flagRegion s j) (mem_runRegions.2 (.inl ⟨j, Nat.lt_succ_self j, rfl⟩))
    rw [readByte_store32_outside _ hm.wf hflag]
    exact hm.bytes x fun r hr => hx r (runRegions_mono le_rfl (Nat.le_succ j) hr)

end

/-! ### A run walked -/

/-- `u` is `s` after a walk has judged `i` completions of a run and recycled `j` of them. -/
structure Walked (s : State) (ps : List BufAnswer) (rest : List (Option BufAnswer)) (i j : Nat) (u : State) : Prop where
  frame : SameButRx u s
  pool : u.pool = s.pool
  rx : u.rx = { s.rx with next := inc s.rx.next j s.cfg.nRrd, free := freeSlot s j, mbuf := u.rx.mbuf }
  mac : u.mac = { s.mac with regs := { s.mac.regs with rfdPidx := bellAfter s j } }
  late : u.late = lateAfterRun s j
  posted : u.posted = postedAfterRun s j
  env : u.env = { s.env with
    alloc := (ps.drop (goodCount s i)).map some ++ rest,
    live := (bufRegions s (ps.take (goodCount s i))).reverse ++ s.env.live, nextBuf := s.env.nextBuf + goodCount s i }
  stats : u.stats = { s.stats with
    rxErr := s.stats.rxErr + (i - goodCount s i), rxDelivered := s.stats.rxDelivered + goodCount s i }
  result : u.result = .count (goodCount s i)
  bells : countActs (isWriteTo s.cfg.regmap.rfdPidx.offset) u = countActs (isWriteTo s.cfg.regmap.rfdPidx.offset) s + j
  slots : RunSlots s i u.rx.mbuf
  memory : RunMemory s ps i j u.mem

section
variable {n : Nat} {ps : List BufAnswer} {rest : List (Option BufAnswer)} (h : ReadyRun s n ps rest)
include h

theorem ReadyRun.walked_start : Walked s ps rest 0 0 (s.setResult (.count 0)) where
  frame := by simp [SameButRx]
  pool := rfl
  rx := by
    obtain ⟨hfree, hnext⟩ := Cfg.ringLengths_of_valid h.valid
    rw [freeSlot, hnext.inc_zero h.next, hfree.inc_zero h.free]
    rfl
  mac := rfl
  late := rfl
  posted := by simp [postedAfterRun]
  env := by simp [goodCount, bufRegions, ← h.alloc]
  stats := by simp [goodCount]
  result := rfl
  bells := rfl
  slots := ⟨rfl, h.filled, fun _ _ => rfl⟩
  memory := ⟨h.wf, fun k hk => absurd hk (Nat.not_lt_zero k), fun _ _ => rfl⟩

/-- The next completion of the run is as it was. -/
theorem ReadyRun.next_completion {j : Nat} (hu : Walked s ps rest j j u) (hj : j < n) :
    rrdCompletion u = completionAt s j ∧ rrdFlagWord u = load32 s.mem (rrdFlag s j) := by
  have hcfg : u.cfg = s.cfg := hu.frame.cfg_eq
  have haddr : rrdAddr u = rrdSlot s j := by rw [rrdAddr, rrdSlot, hu.rx, hcfg]
  obtain ⟨hread, hword⟩ := rrdWords_congr h.valid (m := u.mem) (k := s.mem) (a := rrdSlot s j)
    fun x hx => hu.memory.bytes x (h.slot_not_walked hj le_rfl hx)
  rw [rrdFlagWord, rrdFlagAddr, rrdCompletion, haddr, hcfg, hread]
  exact ⟨rfl, hword⟩

/-- A completion with an error of the drop mask (R194). -/
theorem ReadyRun.judge_bad {j : Nat} (hu : Walked s ps rest j j u) (hj : j < n) (hb : isBad s j = true) :
    judge (completionAt s j) u = .next (raise .rxError u) ∧ Walked s ps rest (j + 1) j (raise .rxError u) := by
  have hcfg : u.cfg = s.cfg := hu.frame.cfg_eq
  have hgood : goodCount s (j + 1) = goodCount s j := by simp [goodCount_succ, hb]
  have hraise : JudgedFrom u (raise .rxError u) := judgedFrom_raise (by simp) u
  refine ⟨judge_error (by simp [h.count j hj]) ?_, hraise.frame.trans hu.frame, hu.pool, hu.rx, hu.mac, hu.late, hu.posted, ?_,
    ?_, ?_, ?_, hu.slots.judge_bad, hu.memory.judge_bad⟩
  · rw [hcfg]
    simpa [isBad] using hb
  · rw [hgood]
    exact hu.env
  · rw [hgood, Nat.succ_sub (goodCount_le s j)]
    simp [raise, countEvent, hu.stats, Nat.add_assoc]
  · rw [hgood]
    exact hu.result
  · simpa [countActs, isWriteTo, raise] using hu.bells

theorem ReadyRun.postedBuf_some {i j : Nat} (hu : Walked s ps rest i j u) (k : Nat) :
    ∃ b, postedBuf u (freeSlot s k) = some b := by
  have hlt : (freeSlot s k).toNat < u.rx.mbuf.length := by
    rw [hu.slots.length, h.length]
    exact h.freeSlot_inside k
  obtain ⟨b, hb⟩ := Option.ne_none_iff_exists'.1 (hu.slots.filled _ (List.getElem_mem hlt))
  exact ⟨b, by simp [postedBuf, List.getD_eq_getElem?_getD, List.getElem?_eq_getElem hlt, hb]⟩

/-- The allocator can give the next replacement. -/
theorem ReadyRun.answer_fits {j : Nat} {a : BufAnswer} {l : List BufAnswer} (hu : Walked s ps rest j j u)
    (ha : ps = ps.take (goodCount s j) ++ a :: l) : bufAnswerFits true u.cfg.rxBufSize a u = true := by
  obtain ⟨hextra, hphys⟩ := h.answers.2 a (ha ▸ by simp)
  obtain ⟨hcfg, -, -, htx, hflags, -⟩ := hu.frame
  have htaken : takenRegions u = (bufRegions s (ps.take (goodCount s j))).reverse ++ takenRegions s := by
    have hsent : sentRegions u = sentRegions s := by
      rw [sentRegions, htx, hflags]
      rfl
    rw [takenRegions, takenRegions, hu.env, hsent, List.append_assoc]
  have hanswers := h.answers
  rw [ha, rxAnswers_append] at hanswers
  obtain ⟨⟨hfree, -⟩, -⟩ := rxAnswers_cons.1 hanswers.2
  rw [← htaken, ← hcfg] at hfree
  simp [bufAnswerFits, hfree, hextra, hphys]

/-- A good completion delivered in its buffer, a new one in its place. -/
theorem ReadyRun.walked_deliver {j : Nat} {a : BufAnswer} (hu : Walked s ps rest j j u) (hb : isBad s j = false) (ha : a ∈ ps)
    (htake : ps.take (goodCount s (j + 1)) = ps.take (goodCount s j) ++ [a]) (k : Completion) (l : List Buf) :
    Walked s ps rest (j + 1) j
      (deliver k l (swappedIn (freeSlot s j) a ((ps.drop (goodCount s (j + 1))).map some ++ rest) u)) := by
  generalize hlater : (ps.drop (goodCount s (j + 1))).map some ++ rest = later
  have hcfg : u.cfg = s.cfg := hu.frame.cfg_eq
  have hgood : goodCount s (j + 1) = goodCount s j + 1 := by simp [goodCount_succ, hb]
  have hslot : rfdSlot u (freeSlot s j) = rfdSlot s (freeSlot s j) := by rw [rfdSlot, rfdSlot, hu.rx, hcfg]
  have hfrom := (judgedFrom_swappedIn (freeSlot s j) a later u).trans (judgedFrom_deliver k l _)
  refine ⟨hfrom.frame.trans hu.frame, ?pool, hfrom.rx.trans (by rw [hu.rx]), hfrom.mac.trans hu.mac, hfrom.late.trans hu.late,
    hfrom.posted.trans hu.posted, ?env, ?stats, ?result, ?bells, ?slots, ?memory⟩
  case pool => simpa using hu.pool
  case env =>
    rw [htake]
    simp [hu.env, ← hlater, hgood, hcfg, bufRegions, Nat.add_assoc]
  case stats => simp [deliver, hu.stats, hgood, Nat.add_assoc]
  case result => simp [deliver, hu.result, hgood, countOf]
  case bells => simpa [countActs, isWriteTo, deliver] using hu.bells
  case slots => simpa using hu.slots.judge_good hb _
  case memory => simpa [hslot, hcfg] using h.memory_judge_good hu.memory hb ha htake

/-- A good completion (R195, R198; 43_buffer_pool.md R221). -/
theorem ReadyRun.judge_good {j : Nat} (hu : Walked s ps rest j j u) (hj : j < n) (hb : isBad s j = false) :
    ∃ v, judge (completionAt s j) u = .next v ∧ Walked s ps rest (j + 1) j v := by
  have hcfg : u.cfg = s.cfg := hu.frame.cfg_eq
  have hcount := h.count j hj
  obtain ⟨hpos, hsize⟩ := h.size j hj hb
  obtain ⟨a, ha, htake, hdrop⟩ := h.next_answer hj hb
  have hfits := h.answer_fits hu (hdrop ▸ (List.take_append_drop _ ps).symm)
  obtain ⟨b, hposted⟩ := h.postedBuf_some hu j
  have halloc : u.env.alloc = some a :: ((ps.drop (goodCount s (j + 1))).map some ++ rest) := by
    rw [hu.env, hdrop]
    rfl
  have hone := assemble_one (len := (completionAt s j).len - u.cfg.crcLen) hposted halloc hfits
  refine ⟨_, judge_chain (by simp [hcount]) ?_ ?_ (by rw [h.start j hj, hcount]; exact hone),
    h.walked_deliver hu hb ha htake _ _⟩
  · rw [hcfg]
    simpa [isBad] using hb
  · simp [fits, hcount, hcfg, hpos, hsize]

/-- The next completion recycled (R199). -/
theorem ReadyRun.walked_recycle {i j : Nat} (hu : Walked s ps rest i j u) (hj : j < n) :
    Walked s ps rest i (j + 1) (recycle (completionAt s j) (load32 s.mem (rrdFlag s j)) u) := by
  obtain ⟨hrfd, hrrd⟩ := Cfg.ringLengths_of_valid h.valid
  have hcfg : u.cfg = s.cfg := hu.frame.cfg_eq
  have hslow : u.env.slowBus = s.env.slowBus := by rw [hu.env]
  have hbell : u.mac.regs.rfdPidx = bellAfter s j := by rw [hu.mac]
  have haddr : rrdFlagAddr u = rrdFlag s j := by rw [rrdFlagAddr, rrdAddr, rrdFlag, rrdSlot, hu.rx, hcfg]
  have hlate := lateAfterRun_succ hslow hu.late hu.posted
  have hposted := postedAfterRun_succ hslow hu.posted hbell
  have hfree : inc (freeSlot s j) 1 s.cfg.nRfd = freeSlot s (j + 1) := hrfd.inc_inc _ _ _
  have hlast : inc (freeSlot s j) (1 - 1) s.cfg.nRfd = bellAfter s (j + 1) := hrfd.inc_zero (h.freeSlot_inside j)
  have hnext : inc u.rx.next 1 s.cfg.nRrd = inc s.rx.next (j + 1) s.cfg.nRrd := by rw [hu.rx, hrrd.inc_inc]
  have hframe : SameButRx (recycle (completionAt s j) (load32 s.mem (rrdFlag s j)) u) s :=
    SameButRx.trans (by simp [SameButRx]) hu.frame
  rw [recycle_eq, haddr, hlate, hposted, hcfg, h.start j hj, h.count j hj, hfree, hlast, hnext] at hframe ⊢
  refine ⟨hframe, hu.pool, ?rx, ?mac, rfl, rfl, hu.env, hu.stats, hu.result, ?bells, hu.slots, h.memory_recycle hu.memory hj⟩
  case rx => rw [hu.rx]
  case mac => rw [hu.mac]
  case bells =>
    have hbells := hu.bells
    simp only [countActs] at hbells ⊢
    simp [isWriteTo, hbells, Nat.add_assoc]

/-- One turn of the walk (R190). -/
theorem ReadyRun.drainOne_next {j : Nat} (hu : Walked s ps rest j j u) (hj : j < n) :
    ∃ v, drainOne u = .next v ∧ Walked s ps rest (j + 1) (j + 1) v := by
  obtain ⟨hcompletion, hword⟩ := h.next_completion hu hj
  have hproblem : contractProblem (completionAt s j) u = none := by
    rw [contractProblem, h.count j hj, h.start j hj, hu.rx, hu.frame.cfg_eq]
    simp [h.crc j hj]
  obtain ⟨v, hv, hjudged⟩ : ∃ v, judge (completionAt s j) u = .next v ∧ Walked s ps rest (j + 1) j v := by
    cases hb : isBad s j with
    | true => exact ⟨_, h.judge_bad hu hj hb⟩
    | false => exact h.judge_good hu hj hb
  refine ⟨_, ?_, h.walked_recycle hjudged hj⟩
  rw [drainOne, hcompletion, hword, hproblem]
  simp only [hv, andThen_next]

/-- The walk takes the completions of the run one after another, up to its bound. -/
theorem ReadyRun.drainLoop_next {j : Nat} (k : Nat) (hu : Walked s ps rest j j u) (hk : j + k ≤ n) :
    ∃ v, drainLoop k u = .next v ∧ Walked s ps rest (j + k) (j + k) v := by
  induction k generalizing j u with
  | zero => exact ⟨u, rfl, hu⟩
  | succ k ih =>
    have hj : j < n := by omega
    have hduring : u.env.during = [] := by
      obtain ⟨-, -, -, hd, -⟩ := h.drain
      rw [hu.env]
      exact hd
    obtain ⟨-, hword⟩ := h.next_completion hu hj
    obtain ⟨v, hv, hwalked⟩ := h.drainOne_next hu hj
    obtain ⟨w, hw, hdone⟩ := ih hwalked (by omega)
    refine ⟨w, ?_, by rwa [Nat.add_right_comm] at hdone⟩
    simp only [drainLoop, macPoint_of_during_nil hduring, hword, hu.frame.cfg_eq, h.updated j hj, if_true, hv, andThen_next, hw]

end

end Sys2Proof.Machine

open Sys2Proof Sys2Proof.Machine

/-- Settles O28: completion by completion up to the budget (`ReadyRun.drainLoop_next`), each judged and recycled. -/
theorem budgetCountsCompletionsConsumed : Obligations.BudgetCountsCompletionsConsumed := by
  unfold Obligations.BudgetCountsCompletionsConsumed
  intro s b ps rest bad good hd hv hm hnext hfree hb hlength hfilled hready halloc hgiven hanswers hlive hapart
  have h : ReadyRun s b.toNat ps rest := ⟨hd, hv, hm, hnext, hfree, hb, hlength, hfilled, fun j hj => (hready j hj).1,
    fun j hj => (hready j hj).2.1, fun j hj => (hready j hj).2.2.1, fun j hj => (hready j hj).2.2.2.1,
    fun j hj => (hready j hj).2.2.2.2, halloc, hgiven, hanswers, hlive, hapart⟩
  obtain ⟨u, hu, hwalked⟩ := h.drainLoop_next b.toNat h.walked_start (by omega)
  rw [Nat.zero_add] at hwalked
  have hfinite : b ≠ 0xFFFFFF#24 := by
    rintro rfl
    obtain ⟨-, ⟨hn, -⟩, -⟩ := Cfg.ringBytes_of_valid hv
    exact absurd (hb.trans hn) (by decide)
  have hzero : b.toNat = 0 ↔ b = 0#24 := BitVec.toNat_inj (y := 0#24)
  have htake : ps.take (goodCount s b.toNat) = ps := List.take_of_length_le hgiven.le
  have hdrop : ps.drop (goodCount s b.toNat) = [] := List.drop_of_length_le hgiven.le
  have halloc' : u.env.alloc = rest := by
    rw [hwalked.env, hdrop]
    rfl
  have hspare : u.pool.spare = s.pool.spare := by rw [hwalked.pool]
  have hbytes := hwalked.memory.bytes
  rw [runRegions, htake] at hbytes
  rw [exec_rxDrain_budget hd hfinite, hu, andThen_next, refillCheck_eq]
  refine ⟨_, rfl, hwalked.result, hwalked.stats, congrArg RxSide.next hwalked.rx, congrArg RxSide.free hwalked.rx,
    hwalked.slots.others, hspare, halloc', hwalked.late.trans (if_congr hzero rfl rfl),
    hwalked.posted.trans (if_congr Iff.rfl rfl (if_congr hzero rfl rfl)), ?_, fun hne => ?_,
    hwalked.memory.cleared, hbytes, ?_⟩
  · rw [← hwalked.bells, countActs, countActs]
    dsimp only
    split <;> simp [isWriteTo]
  · rw [hwalked.mac, bellAfter, if_neg (mt hzero.1 hne)]
    rfl
  · exact SameButRx.trans (by simp [SameButRx]) hwalked.frame
end

section
/-! SUPPORT. O30: `POOL.REFILL` (43_buffer_pool.md R232) while frames are in flight, whose memory no new buffer may meet. -/

namespace Sys2Proof.Machine

variable {s : State}

/-- The allocator can give the first of these answers, and then the others. -/
theorem bufAnswerFits_of_rxAnswers {a : BufAnswer} {l : List BufAnswer} (h : RxAnswers s (takenRegions s) (a :: l)) :
    bufAnswerFits true s.cfg.rxBufSize a s = true := by
  obtain ⟨⟨hfree, hextra, hphys⟩, -⟩ := rxAnswers_cons.1 h
  simp [bufAnswerFits, hfree, hextra, hphys]

/-- The pool is filled as far as it has room or the allocator gives (R232), whatever is in flight. -/
theorem addSpares_taken {bufs : List BufAnswer} {rest : List (Option BufAnswer)} {n : Nat}
    (hanswers : RxAnswers s (takenRegions s) bufs)
    (halloc : s.env.alloc = bufs.map some ++ none :: rest ∧ bufs.length < n ∨
      s.env.alloc = bufs.map some ++ rest ∧ bufs.length = n) : addSpares n s = sparedState s bufs rest := by
  induction bufs generalizing s n with
  | nil =>
    obtain ⟨halloc, hn⟩ | ⟨halloc, rfl⟩ := halloc
    · obtain ⟨n, rfl⟩ := Nat.exists_eq_succ_of_ne_zero hn.ne'
      rw [addSpares, rxBufAlloc, bufAlloc_none halloc]
      simp [sparedState, bufsGiven, bufRegions, givenBufs, fillBufs, State.setMem, State.setPool, State.setEnv]
    · exact (sparedState_nil halloc).symm
  | cons a l ih =>
    obtain ⟨later, hlater, hrest⟩ : ∃ later, s.env.alloc = some a :: later ∧
        (later = l.map some ++ none :: rest ∧ l.length + 1 < n ∨ later = l.map some ++ rest ∧ l.length + 1 = n) :=
      halloc.elim (fun h => ⟨_, h.1, .inl ⟨rfl, h.2⟩⟩) fun h => ⟨_, h.1, .inr ⟨rfl, h.2⟩⟩
    obtain ⟨n, rfl⟩ := Nat.exists_eq_succ_of_ne_zero (n := n) (by omega)
    have hfirst : addSpares (n + 1) s = addSpares n (sparedState s [a] later) := by
      rw [addSpares, rxBufAlloc, bufAlloc_some hlater (bufAnswerFits_of_rxAnswers hanswers)]
      rfl
    have hl : RxAnswers (sparedState s [a] later) (takenRegions (sparedState s [a] later)) l :=
      (RxAnswers.congr rfl).2 (rxAnswers_cons.1 hanswers).2
    rw [hfirst, ih hl (hrest.imp (fun h => ⟨h.1, by omega⟩) fun h => ⟨h.1, by omega⟩)]
    simp [sparedState, bufsGiven, bufRegions, givenBufs, fillBufs, State.setMem, State.setPool, State.setEnv, Nat.add_assoc,
      Nat.add_comm 1]

/-- New buffers in the pool store to their own memory alone. -/
theorem sparedState_bytes (bufs : List BufAnswer) (rest : List (Option BufAnswer)) (hm : Memory.wf s.mem = true) :
    SameBytesOutside (sparedState s bufs rest) s (bufRegions s bufs) := fun _ hx =>
  readByte_fillBufs_outside hm fun _ hb => hx _ (List.mem_map_of_mem hb)

end Sys2Proof.Machine

open Sys2Proof Sys2Proof.Machine

/-- Settles O30: the buffers given, in their order, join the pool behind the spares it has (`addSpares_taken`). -/
theorem refillTopsUpThePool : Obligations.RefillTopsUpThePool := by
  unfold Obligations.RefillTopsUpThePool
  refine fun s ps rest => ⟨fun hdisabled => ?_, fun henabled halloc hanswers hm => ?_⟩
  · change Host.Outcome.next ((refill s).setResult .returned) = _
    rw [refill, hdisabled, if_neg Bool.false_ne_true]
    rfl
  · have hexec : exec .poolRefill s = .next ((clearRefill (sparedState s ps rest)).setResult .returned) := by
      change Host.Outcome.next ((refill s).setResult .returned) = _
      rw [refill, if_pos henabled, addSpares_taken hanswers halloc]
    exact ⟨_, givenBufs s.cfg.rxBufSize s.env.nextBuf ps, hexec, rfl, rfl, map_phys_givenBufs _ _ _,
      fun _ hb => fitBuf_of_mem_givenBufs hanswers hb, rfl, rfl, rfl, rfl, rfl, sparedState_bytes ps rest hm, rfl, rfl, rfl,
      by simp [SameButRx, clearRefill, sparedState, bufsGiven]⟩
end

section
/-! SUPPORT. O25: the four tiers of `acquire` (43_buffer_pool.md R220 to R224), one equation per tier. -/

namespace Sys2Proof.Machine

variable {s : State} {m : Memory}

/-! ### Copies (00_scope.md R13) -/

theorem readByte_memCopy_at {dst src : Addr} {n k : Nat} (hm : Memory.wf m = true) (hn : n ≤ 2 ^ 64) (hk : k < n) :
    readByte (memCopy m dst src n) (dst + BitVec.ofNat 64 k) = readByte m (src + BitVec.ofNat 64 k) :=
  readByte_writeBytes_at hm (by simpa using hn) (getElem?_readBytes m src hk)

theorem readByte_memCopy_outside {dst src x : Addr} {n : Nat} (hm : Memory.wf m = true) (hx : inRange dst n x = false) :
    readByte (memCopy m dst src n) x = readByte m x :=
  readByte_writeBytes_outside hm (by simpa using hx)

theorem inRange_mono {a x : Addr} {n k : Nat} (hn : n ≤ k) (hx : inRange a n x = true) : inRange a k x = true := by
  simp only [inRange, decide_eq_true_eq] at *
  omega

theorem not_inRange_mono {a x : Addr} {n k : Nat} (hn : n ≤ k) (hx : inRange a k x = false) : inRange a n x = false := by
  simp only [inRange, decide_eq_false_iff_not] at *
  omega

/-- The first `d` bytes of `b` stand in a new buffer of at least `d`. -/
def copyMem (d : Nat) (b : Buf) (a : BufAnswer) (m : Memory) : Memory := memCopy (fillBuf d a m) a.phys b.phys d

theorem copyMem_wf (d : Nat) (b : Buf) (a : BufAnswer) (hm : Memory.wf m = true) : Memory.wf (copyMem d b a m) = true :=
  memCopy_wf _ _ _ (fillBuf_wf d a hm)

theorem readByte_copyMem_outside {d : Nat} {b : Buf} {a : BufAnswer} {x : Addr} (hm : Memory.wf m = true)
    (hx : inRange (answerRegion d a).base (answerRegion d a).size x = false) :
    readByte (copyMem d b a m) x = readByte m x := by
  have hdata : inRange a.phys d x = false := not_inRange_mono (Nat.le_add_right d a.extra) hx
  rw [copyMem, readByte_memCopy_outside (fillBuf_wf d a hm) hdata, readByte_fillBuf_outside hm hx]

/-- What a new buffer holds does not reach the buffer copied from. -/
theorem readByte_copyMem_at {d k : Nat} {b : Buf} {a : BufAnswer} (hm : Memory.wf m = true) (hd : d ≤ b.cap) (h64 : d ≤ 2 ^ 64)
    (hk : k < d) (hapart : apart (answerRegion d a) (bufRegion b) = true) :
    readByte (copyMem d b a m) (a.phys + BitVec.ofNat 64 k) = readByte m (b.phys + BitVec.ofNat 64 k) := by
  rw [copyMem, readByte_memCopy_at (fillBuf_wf d a hm) h64 hk]
  rw [apart_comm] at hapart
  exact readByte_fillBuf_outside hm (apart_not_inRange hapart (inRange_mono hd (inRange_add b.phys hk h64)))

/-! ### The tiers (R221 to R224) -/

/-- `s` with the first bytes of `b` copied into a new buffer for the answer `a`. -/
def copiedOut (d : Nat) (b : Buf) (a : BufAnswer) (rest : List (Option BufAnswer)) (s : State) : State :=
  copyInto (newBuf d a s) b d (takeBuf d a (s.setEnv { s.env with alloc := rest }))

theorem copyInto_mem (c b : Buf) (d : Nat) (s : State) : (copyInto c b d s).mem = memCopy s.mem c.phys b.phys d := rfl

theorem post_mem (i : Half) (b : Buf) (s : State) : (post i b s).mem = store64 s.mem (rfdSlot s i) b.phys := rfl

/-- `s` with a spare drawn from the pool that leaves `ps` there. -/
def drawSpare (ps : List Buf) (rest : List (Option BufAnswer)) (s : State) : State :=
  (s.setEnv { s.env with alloc := rest }).setPool { s.pool with spare := ps }

@[simp] theorem drawSpare_fields (ps : List Buf) (rest : List (Option BufAnswer)) (s : State) :
    (drawSpare ps rest s).rx = s.rx ∧ (drawSpare ps rest s).pool = { s.pool with spare := ps } ∧
    (drawSpare ps rest s).late = s.late ∧ (drawSpare ps rest s).posted = s.posted ∧ (drawSpare ps rest s).mem = s.mem ∧
    (drawSpare ps rest s).env = { s.env with alloc := rest } ∧ ∀ i, rfdSlot (drawSpare ps rest s) i = rfdSlot s i := by
  simp [drawSpare, rfdSlot]

section
variable {i : Half} {d : Nat} {b : Buf} {a : BufAnswer} {rest : List (Option BufAnswer)}

@[simp] theorem copiedOut_fields (d : Nat) (b : Buf) (a : BufAnswer) (rest : List (Option BufAnswer)) (s : State) :
    (copiedOut d b a rest s).rx = s.rx ∧ (copiedOut d b a rest s).pool = s.pool ∧
    (copiedOut d b a rest s).late = s.late ∧ (copiedOut d b a rest s).posted = s.posted ∧
    (copiedOut d b a rest s).mem = copyMem d b a s.mem ∧
    (copiedOut d b a rest s).env = { s.env with
      alloc := rest, live := answerRegion d a :: s.env.live, nextBuf := s.env.nextBuf + 1 } := by
  simp [copiedOut, copyInto, takeBuf, takeRegion, copyMem, fillBuf, newBuf]

/-- Tier 1 (R221). -/
theorem acquire_replaced (halloc : s.env.alloc = some a :: rest) (hfits : bufAnswerFits true s.cfg.rxBufSize a s = true) :
    acquire i d b s = (some { b with len := d }, swappedIn i a rest s) := by
  rw [acquire, rxBufAlloc, bufAlloc_some halloc hfits]
  rfl

/-- Tier 2 (R222). -/
theorem acquire_copied (halloc : s.env.alloc = none :: some a :: rest) (hfits : bufAnswerFits false d a s = true) :
    acquire i d b s = (some { newBuf d a s with len := d }, copiedOut d b a rest s) := by
  have hfirst : rxBufAlloc s = (none, s.setEnv { s.env with alloc := some a :: rest }) := bufAlloc_none halloc
  have hsecond := bufAlloc_some (s := s.setEnv { s.env with alloc := some a :: rest }) (n := d) rfl hfits
  rw [acquire, hfirst]
  dsimp only
  rw [hsecond]
  rfl

section
variable (halloc : s.env.alloc = none :: none :: rest)
include halloc

/-- The allocator gives neither a new buffer nor a small one. -/
theorem acquire_exhausted : acquire i d b s = acquireSpare i d b (s.setEnv { s.env with alloc := rest }) := by
  have hfirst : rxBufAlloc s = (none, s.setEnv { s.env with alloc := none :: rest }) := bufAlloc_none halloc
  have hsecond := bufAlloc_none (s := s.setEnv { s.env with alloc := none :: rest }) (z := false) (n := d) rfl
  rw [acquire, hfirst]
  dsimp only
  rw [hsecond]
  rfl

/-- Tier 4 (R224). -/
theorem acquire_lost (hspare : s.pool.spare = []) :
    acquire i d b s = (none, s.setEnv { s.env with alloc := rest }) := by
  rw [acquire_exhausted halloc, acquireSpare, State.setEnv_pool, hspare]

variable {q : Buf} {ps : List Buf} (hspare : s.pool.spare = q :: ps)
include hspare

/-- Tier 3 with the data copied into the spare (R223). -/
theorem acquire_spare_copied (hmode : s.cfg.spareMode = .copyIntoSpare) :
    acquire i d b s = (some { q with len := d }, copyInto q b d (drawSpare ps rest s)) := by
  rw [acquire_exhausted halloc, acquireSpare, State.setEnv_pool, hspare]
  simp only [State.setEnv_cfg, hmode]
  rfl

/-- Tier 3 with the spare swapped in (R223). -/
theorem acquire_spare_swapped (hmode : s.cfg.spareMode = .swapInSpare) :
    acquire i d b s = (some { b with len := d }, post i q (drawSpare ps rest s)) := by
  rw [acquire_exhausted halloc, acquireSpare, State.setEnv_pool, hspare]
  simp only [State.setEnv_cfg, hmode]
  rfl

end

end

end Sys2Proof.Machine

open Sys2Proof Sys2Proof.Machine

/-- Settles O25: one tier after another (`acquire_replaced`, `acquire_copied`, `acquire_exhausted`). -/
theorem acquireTriesFourTiers : Obligations.AcquireTriesFourTiers := by
  unfold Obligations.AcquireTriesFourTiers
  intro s i d b a rest hm hi hd h64 hlive
  refine ⟨fun halloc hfits => ?replaced, fun halloc hfits => ?copied, fun halloc q ps hspare => ?spare, fun halloc hspare => ?lost⟩
  case replaced =>
    obtain ⟨hpool, -, -, -, hmbuf, hmem, henv⟩ := swappedIn_fields i a rest s
    have hfrom := judgedFrom_swappedIn i a rest s
    have hrx := hfrom.rx
    rw [hmbuf] at hrx
    refine ⟨newBuf s.cfg.rxBufSize a s, _, acquire_replaced halloc hfits, newBuf_fit hfits, rfl, rfl, hrx, ?_, fun x hx => ?_,
      hpool, hfrom.late, hfrom.posted, congrArg Env.alloc henv, congrArg Env.live henv⟩
    · rw [hmem]
      exact load64_store64 _ _ (fillBuf_wf _ a hm)
    · obtain ⟨hslot, hbuf⟩ := List.forall_mem_cons.1 hx
      have hbuf : inRange (answerRegion s.cfg.rxBufSize a).base (answerRegion s.cfg.rxBufSize a).size x = false :=
        hbuf _ (List.mem_singleton_self _)
      rw [hmem]
      exact readByte_swapMem_outside hm hbuf hslot
  case copied =>
    have hapart : apart (answerRegion d a) (bufRegion b) = true := by
      simp only [bufAnswerFits, Bool.and_eq_true] at hfits
      exact apart_of_freeAmong hfits.1 (List.mem_append_left _ hlive)
    obtain ⟨hrx, hpool, hlate, hposted, hmem, henv⟩ := copiedOut_fields d b a rest s
    refine ⟨_, _, acquire_copied halloc hfits, rfl, rfl, rfl, rfl, hrx, hpool, hlate, hposted, congrArg Env.alloc henv,
      congrArg Env.live henv, fun k hk => ?_, fun x hx => ?_⟩
    · rw [hmem]
      exact readByte_copyMem_at hm hd h64.le hk hapart
    · have hbuf : inRange (answerRegion d a).base (answerRegion d a).size x = false := hx _ (List.mem_singleton_self _)
      rw [hmem]
      exact readByte_copyMem_outside hm hbuf
  case spare =>
    cases hmode : s.cfg.spareMode with
    | copyIntoSpare =>
      have hmem : (copyInto q b d (drawSpare ps rest s)).mem = memCopy s.mem q.phys b.phys d := by simp [copyInto_mem]
      refine ⟨_, _, acquire_spare_copied halloc hspare hmode, by simp, by simp, by simp, by simp,
        fun _ => ⟨rfl, by simp, fun k hk => ?_, fun x hx => ?_⟩, nofun⟩
      · rw [hmem, readByte_memCopy_at hm h64.le hk]
      · rw [hmem, readByte_memCopy_outside hm (hx _ (List.mem_singleton_self _))]
    | swapInSpare =>
      have hmem : (post i q (drawSpare ps rest s)).mem = store64 s.mem (rfdSlot s i) q.phys := by simp [post_mem]
      refine ⟨_, _, acquire_spare_swapped halloc hspare hmode, by simp, by simp, by simp, by simp, nofun,
        fun _ => ⟨rfl, by simp [post], ?_, fun x hx => ?_⟩⟩
      · rw [hmem, load64_store64 _ _ hm]
      · rw [hmem]
        exact readByte_store64_outside _ hm (hx (rfdRegion s i) (List.mem_singleton_self _))
  case lost => exact acquire_lost halloc hspare
end

section
/-! SUPPORT. A slot of a chain served by one tier (43_buffer_pool.md R220 to R223, R225), and the memory that a run of tiers fills. -/

namespace Sys2Proof.Machine

variable {u : State} {c : Cfg}

/-! ### A list of tiers -/

theorem chainGiven_append (ts ts' : List Tier) : chainGiven (ts ++ ts') = chainGiven ts ++ chainGiven ts' :=
  List.filterMap_append

theorem freshRegions_append {align : Nat} {k l live : List Region} : freshRegions align (k ++ l) live = true ↔
    freshRegions align k live = true ∧ freshRegions align l (k.reverse ++ live) = true := by
  induction k generalizing live with
  | nil => simp [freshRegions]
  | cons r k ih => simp [freshRegions_cons, ih, and_assoc]

/-- The tier that serves the `i`-th slot posts another buffer there. -/
def SwapsAt (c : Cfg) (ts : List Tier) (i : Nat) : Prop := ts[i]?.any (swapsIn c) = true

theorem SwapsAt.lt {ts : List Tier} {i : Nat} (h : SwapsAt c ts i) : i < ts.length := by
  by_contra hle
  simp [SwapsAt, List.getElem?_eq_none (Nat.le_of_not_lt hle)] at h

theorem swapsAt_append_singleton {ts : List Tier} {tier : Tier} {i : Nat} :
    SwapsAt c (ts ++ [tier]) i ↔ SwapsAt c ts i ∨ i = ts.length ∧ swapsIn c tier = true := by
  rcases Nat.lt_trichotomy i ts.length with h | rfl | h
  · simp [SwapsAt, List.getElem?_append_left h, h.ne]
  · simp [SwapsAt]
  · simp [SwapsAt, List.getElem?_eq_none, h.le, h.ne', Nat.succ_le_of_lt h]

/-- The memory of a spare that data is copied into. -/
def spareRegion (c : Cfg) (p : Buf) : Region := { base := p.phys, size := c.rxBufSize }

/-- The buffers that are filled when the tiers serve slots from a pool: those the allocator gives, and the spares copied into. -/
def chainFills (c : Cfg) (spare : List Buf) (ts : List Tier) : List Region :=
  (chainGiven ts).map (answerRegion c.rxBufSize) ++
    if c.spareMode = .copyIntoSpare then (spare.take (ts.count .spare)).map (spareRegion c) else []

theorem mem_chainFills_append {spare : List Buf} {ts ts' : List Tier} {r : Region} : r ∈ chainFills c spare (ts ++ ts') ↔
    r ∈ chainFills c spare ts ∨ r ∈ chainFills c (spare.drop (ts.count .spare)) ts' := by
  simp only [chainFills, chainGiven_append, List.count_append, List.take_add, List.map_append]
  split <;> simp only [List.mem_append, List.not_mem_nil, or_false]
  tauto

/-! ### One slot -/

/-- What becomes of a slot with buffer `b` and `d` bytes of data in it when a tier serves it, `next` being the identity of a new
buffer and `spare` the pool: `got` joins the chain and `now` stays posted (R221 to R223). -/
def TierServes (c : Cfg) (next : Nat) (spare : List Buf) (d : Nat) (b got now : Buf) : Tier → Prop
  | .replaced a => got = { b with len := d } ∧ now.id = next ∧ now.phys = a.phys ∧ FitBuf c now
  | .copied a => now = b ∧ got.id = next ∧ got.phys = a.phys ∧ got.cap = d + a.extra ∧ got.len = d
  | .spare => ∃ p, spare.head? = some p ∧
    match c.spareMode with
    | .copyIntoSpare => got = { p with len := d } ∧ now = b
    | .swapInSpare => got = { b with len := d } ∧ now = p

theorem TierServes.len_eq {next d : Nat} {spare : List Buf} {b got now : Buf} {tier : Tier}
    (h : TierServes c next spare d b got now tier) : got.len = d := by
  cases tier with
  | replaced a =>
    obtain ⟨rfl, -⟩ := h
    rfl
  | copied a => exact h.2.2.2.2
  | spare =>
    obtain ⟨p, -, h⟩ := h
    cases hmode : c.spareMode <;> rw [hmode] at h <;> obtain ⟨rfl, -⟩ := h <;> rfl

theorem TierServes.now_eq {next d : Nat} {spare : List Buf} {b got now : Buf} {tier : Tier}
    (h : TierServes c next spare d b got now tier) (hkeeps : swapsIn c tier = false) : now = b := by
  cases tier with
  | replaced a => cases hkeeps
  | copied a => exact h.1
  | spare =>
    obtain ⟨p, -, h⟩ := h
    cases hmode : c.spareMode <;> rw [hmode] at h
    · exact h.2
    · simp [swapsIn, hmode] at hkeeps

/-- The allocator, or the pool, can give what the tier takes. -/
def TierFits (u : State) : Tier → Prop
  | .replaced a => bufAnswerFits true u.cfg.rxBufSize a u = true
  | .copied a => bufAnswerFits false u.cfg.rxBufSize a u = true
  | .spare => u.pool.spare ≠ []

/-- The memory after a tier has served slot `i` and left `now` posted there. -/
structure ServedMemory (u : State) (i : Half) (tier : Tier) (now : Buf) (m : Memory) : Prop where
  wf : Memory.wf m = true
  bytes : ∀ x, (∀ r ∈ chainFills u.cfg u.pool.spare [tier], inRange r.base r.size x = false) →
    (swapsIn u.cfg tier = true → inRange (rfdSlot u i) 8 x = false) → readByte m x = readByte u.mem x
  posted : swapsIn u.cfg tier = true → load64 m (rfdSlot u i) = now.phys

/-- `v` is `u` after a tier has served slot `i`, with buffer `b` and `d` bytes of data in it. -/
structure Served (u : State) (i : Half) (d : Nat) (tier : Tier) (later : List (Option BufAnswer)) (b got now : Buf) (v : State) :
    Prop where
  state : v = { u with
    rx := { u.rx with mbuf := u.rx.mbuf.set i.toNat (some now) }
    pool := { u.pool with spare := u.pool.spare.drop ([tier].count .spare) }
    mem := v.mem
    env := { u.env with
      alloc := later, nextBuf := u.env.nextBuf + (chainGiven [tier]).length,
      live := (bufRegions u (chainGiven [tier])).reverse ++ u.env.live } }
  serves : TierServes u.cfg u.env.nextBuf u.pool.spare d b got now tier
  memory : Memory.wf u.mem = true → ServedMemory u i tier now v.mem

section
variable {i : Half} {d : Nat} {b : Buf} {later : List (Option BufAnswer)}

/-- What stands at a place already, put there, changes nothing. -/
theorem set_of_getElem? {α : Type} {l : List α} {n : Nat} {x : α} (h : l[n]? = some x) : l.set n x = l := by
  obtain ⟨hn, rfl⟩ := List.getElem?_eq_some_iff.1 h
  exact List.set_getElem_self hn

theorem served_replaced {a : BufAnswer} (hfits : bufAnswerFits true u.cfg.rxBufSize a u = true) :
    Served u i d (.replaced a) later b { b with len := d } (newBuf u.cfg.rxBufSize a u) (swappedIn i a later u) where
  state := by
    simp [swappedIn, post, takeBuf, takeRegion, chainGiven, tierGiven, bufRegions, newBuf, State.setRx, State.setMem,
      State.setEnv]
  serves := ⟨rfl, rfl, rfl, newBuf_fit hfits⟩
  memory hm := by
    obtain ⟨-, -, -, -, -, hmem, -⟩ := swappedIn_fields i a later u
    rw [hmem]
    refine ⟨swapMem_wf _ _ _ hm, fun x hfills hslot => ?_, fun _ => load64_store64 _ _ (fillBuf_wf _ a hm)⟩
    exact readByte_swapMem_outside hm (hfills (answerRegion u.cfg.rxBufSize a) (by simp [chainFills, chainGiven, tierGiven]))
      (hslot rfl)

theorem served_copied {a : BufAnswer} (hposted : u.rx.mbuf[i.toNat]? = some (some b)) (hd : d = u.cfg.rxBufSize) :
    Served u i d (.copied a) later b { newBuf d a u with len := d } b (copiedOut d b a later u) where
  state := by
    simp [set_of_getElem? hposted, copiedOut, copyInto, takeBuf, takeRegion, chainGiven, tierGiven, bufRegions, newBuf,
      State.setMem, State.setEnv, hd]
  serves := ⟨rfl, rfl, rfl, rfl, rfl⟩
  memory hm := by
    obtain ⟨-, -, -, -, hmem, -⟩ := copiedOut_fields d b a later u
    rw [hmem]
    refine ⟨copyMem_wf d b a hm, fun x hfills _ => ?_, nofun⟩
    exact readByte_copyMem_outside hm (hfills (answerRegion d a) (by simp [chainFills, chainGiven, tierGiven, hd]))

section
variable {q : Buf} {ps : List Buf} (hspare : u.pool.spare = q :: ps)
include hspare

theorem served_spare_copied (hmode : u.cfg.spareMode = .copyIntoSpare) (hposted : u.rx.mbuf[i.toNat]? = some (some b))
    (hd : d ≤ u.cfg.rxBufSize) :
    Served u i d .spare later b { q with len := d } b (copyInto q b d (drawSpare ps later u)) where
  state := by
    simp [set_of_getElem? hposted, copyInto, drawSpare, chainGiven, tierGiven, bufRegions, State.setPool, State.setMem,
      State.setEnv, hspare]
  serves := ⟨q, by rw [hspare, List.head?_cons], by rw [hmode]; exact ⟨rfl, rfl⟩⟩
  memory hm := by
    have hmem : (copyInto q b d (drawSpare ps later u)).mem = memCopy u.mem q.phys b.phys d := by simp [copyInto_mem]
    rw [hmem]
    refine ⟨memCopy_wf _ _ _ hm, fun x hfills _ => ?_, by simp [swapsIn, hmode]⟩
    have hbuf := hfills (spareRegion u.cfg q) (by simp [chainFills, chainGiven, tierGiven, hspare, hmode])
    exact readByte_memCopy_outside hm (not_inRange_mono hd hbuf)

theorem served_spare_swapped (hmode : u.cfg.spareMode = .swapInSpare) :
    Served u i d .spare later b { b with len := d } q (post i q (drawSpare ps later u)) where
  state := by
    simp [post, drawSpare, chainGiven, tierGiven, bufRegions, State.setRx, State.setPool, State.setMem, State.setEnv, hspare]
  serves := ⟨q, by rw [hspare, List.head?_cons], by rw [hmode]; exact ⟨rfl, rfl⟩⟩
  memory hm := by
    have hmem : (post i q (drawSpare ps later u)).mem = store64 u.mem (rfdSlot u i) q.phys := by simp [post_mem]
    rw [hmem]
    refine ⟨store64_wf _ _ hm, fun x _ hslot => ?_, fun _ => load64_store64 _ _ hm⟩
    exact readByte_store64_outside _ hm (hslot (by simp [swapsIn, hmode]))

end

/-- The tier that is the first to succeed serves the slot (R220). -/
theorem acquire_served {tier : Tier} (hposted : u.rx.mbuf[i.toNat]? = some (some b))
    (halloc : u.env.alloc = tierAnswers tier ++ later) (hfits : TierFits u tier) (hd : d ≤ u.cfg.rxBufSize)
    (hfull : ∀ a, tier = .copied a → d = u.cfg.rxBufSize) :
    ∃ got now v, acquire i d b u = (some got, v) ∧ Served u i d tier later b got now v := by
  cases tier with
  | replaced a => exact ⟨_, _, _, acquire_replaced halloc hfits, served_replaced hfits⟩
  | copied a =>
    have hdata := hfull a rfl
    exact ⟨_, _, _, acquire_copied halloc (hdata ▸ hfits), served_copied hposted hdata⟩
  | spare =>
    obtain ⟨q, ps, hspare⟩ := List.exists_cons_of_ne_nil hfits
    cases hmode : u.cfg.spareMode with
    | copyIntoSpare =>
      exact ⟨_, _, _, acquire_spare_copied halloc hspare hmode, served_spare_copied hspare hmode hposted hd⟩
    | swapInSpare => exact ⟨_, _, _, acquire_spare_swapped halloc hspare hmode, served_spare_swapped hspare hmode⟩

end

/-! ### The slots of a frame (R225) -/

/-- The slot of the `i`-th buffer of a frame. -/
def chainSlot (s : State) (start : Half) (i : Nat) : Half := inc start i s.cfg.nRfd

/-- How much of a frame of `len` bytes stands in its `i`-th buffer. -/
def chunk (c : Cfg) (len i : Nat) : Nat := min (len - i * c.rxBufSize) c.rxBufSize

theorem sub_chunk (c : Cfg) (len i : Nat) : len - i * c.rxBufSize - chunk c len i = len - (i + 1) * c.rxBufSize := by
  rw [chunk, Nat.succ_mul]
  omega

theorem min_add_chunk (c : Cfg) (len i : Nat) :
    min len (i * c.rxBufSize) + chunk c len i = min len ((i + 1) * c.rxBufSize) := by
  rw [chunk, Nat.succ_mul]
  omega

/-- A frame of `len` bytes whose slots from `start` on the tiers serve as listed, with answers the allocator can give, in every
slot some of its data, and in every slot whose data is copied a full buffer. -/
structure ChainRun (s : State) (start : Half) (len : Nat) (ts : List Tier) (rest : List (Option BufAnswer)) : Prop where
  valid : s.cfg.valid = true
  start : start.toNat < s.cfg.nRfd
  inside : ts.length ≤ s.cfg.nRfd
  length : s.rx.mbuf.length = s.cfg.nRfd
  filled : ∀ e ∈ s.rx.mbuf, e ≠ none
  data : ∀ i < ts.length, i * s.cfg.rxBufSize < len
  full : ∀ a, .copied a ∈ ts → ts.length * s.cfg.rxBufSize ≤ len
  alloc : s.env.alloc = ts.flatMap tierAnswers ++ rest
  spares : ts.count .spare ≤ s.pool.spare.length
  answers : ChainAnswers s ts

/-- The free descriptor of slot `k` holds the address of the buffer tracked there (10_state.md R34). -/
def DescriptorHolds (s : State) (k : Nat) : Prop :=
  ∀ b, s.rx.mbuf[k]? = some (some b) → load64 s.mem (rfdSlot s (BitVec.ofNat 16 k)) = b.phys

/-- The memory of `u`, which is `s` after the tiers have served the slots from `start` on. -/
structure ChainMemory (s : State) (start : Half) (ts : List Tier) (u : State) : Prop where
  wf : Memory.wf u.mem = true
  bytes : ∀ x, (∀ r ∈ chainFills s.cfg s.pool.spare ts, inRange r.base r.size x = false) →
    (∀ i, SwapsAt s.cfg ts i → inRange (rfdSlot s (chainSlot s start i)) 8 x = false) → readByte u.mem x = readByte s.mem x
  posted : (∀ r ∈ chainFills s.cfg s.pool.spare ts, apart (rfdRing s.cfg s.rx.rfdPhys) r = true) →
    ∀ k < s.cfg.nRfd, (DescriptorHolds s k ∨ ∃ i, SwapsAt s.cfg ts i ∧ k = (chainSlot s start i).toNat) → DescriptorHolds u k

/-- `u` is `s` after the tiers have served the slots of a frame from `start` on, `got` being the chain they give. -/
structure Chained (s : State) (start : Half) (len : Nat) (ts : List Tier) (later : List (Option BufAnswer)) (got : List Buf)
    (u : State) : Prop where
  state : u = { s with
    rx := { s.rx with mbuf := u.rx.mbuf }
    pool := { s.pool with spare := s.pool.spare.drop (ts.count .spare) }
    mem := u.mem
    env := { s.env with
      alloc := later, nextBuf := s.env.nextBuf + (chainGiven ts).length,
      live := (bufRegions s (chainGiven ts)).reverse ++ s.env.live } }
  length : got.length = ts.length
  total : (got.map Buf.len).sum = min len (ts.length * s.cfg.rxBufSize)
  served : ∀ i tier, ts[i]? = some tier → ∃ b g now, s.rx.mbuf[(chainSlot s start i).toNat]? = some (some b) ∧
    got[i]? = some g ∧ u.rx.mbuf[(chainSlot s start i).toNat]? = some (some now) ∧
    TierServes s.cfg (s.env.nextBuf + (chainGiven (ts.take i)).length) (s.pool.spare.drop ((ts.take i).count .spare))
      (chunk s.cfg len i) b g now tier
  others : ∀ k, (∀ i < ts.length, k ≠ (chainSlot s start i).toNat) → u.rx.mbuf[k]? = s.rx.mbuf[k]?
  memory : Memory.wf s.mem = true → ChainMemory s start ts u

section
variable {s v : State} {start : Half} {len d : Nat} {ts ts' : List Tier} {tier : Tier} {rest later : List (Option BufAnswer)}
  {got : List Buf} {b g now : Buf}

theorem chained_start (s : State) (start : Half) (len : Nat) : Chained s start len [] s.env.alloc [] s where
  state := by simp [chainGiven, bufRegions]
  length := rfl
  total := by simp
  served := nofun
  others _ _ := rfl
  memory hm := ⟨hm, fun _ _ _ => rfl, fun _ _ _ h => h.elim id fun ⟨i, hi, _⟩ => absurd hi.lt (Nat.not_lt_zero i)⟩

/-! ### What a served slot leaves of the state -/

theorem Served.cfg_eq {i : Half} (h : Served u i d tier later b g now v) : v.cfg = u.cfg := by rw [h.state]

theorem Served.rx_eq {i : Half} (h : Served u i d tier later b g now v) :
    v.rx = { u.rx with mbuf := u.rx.mbuf.set i.toNat (some now) } := by rw [h.state]

/-- A slot served keeps the descriptors of the free ring as they should be, and its own becomes so when its buffer is swapped,
where no buffer that is filled stands in the ring. -/
theorem Served.descriptorHolds {i : Half} (h : Served u i d tier later b g now v) (hm : Memory.wf u.mem = true)
    (hv : u.cfg.valid = true) (hi : i.toNat < u.cfg.nRfd) (hposted : u.rx.mbuf[i.toNat]? = some (some b))
    (hapart : ∀ r ∈ chainFills u.cfg u.pool.spare [tier], apart (rfdRing u.cfg u.rx.rfdPhys) r = true) {k : Nat}
    (hk : k < u.cfg.nRfd) (hholds : DescriptorHolds u k ∨ swapsIn u.cfg tier = true ∧ k = i.toNat) : DescriptorHolds v k := by
  have hmem := h.memory hm
  have hslot (j : Half) : rfdSlot v j = rfdSlot u j := by rw [rfdSlot, rfdSlot, h.cfg_eq, h.rx_eq]
  intro e he
  rw [hslot]
  rw [h.rx_eq] at he
  by_cases hfresh : swapsIn u.cfg tier = true ∧ k = i.toNat
  · obtain ⟨hswap, rfl⟩ := hfresh
    obtain ⟨hlt, -⟩ := List.getElem?_eq_some_iff.1 hposted
    obtain rfl : now = e := by simpa [List.getElem?_set_self hlt] using he
    simpa using hmem.posted hswap
  · have hkept : u.rx.mbuf[k]? = some (some e) := by
      cases hswap : swapsIn u.cfg tier with
      | false =>
        rw [h.serves.now_eq hswap] at he
        dsimp only at he
        rwa [set_of_getElem? hposted] at he
      | true => rwa [List.getElem?_set_ne fun heq => hfresh ⟨hswap, heq.symm⟩] at he
    rw [← (hholds.resolve_right hfresh) e hkept]
    refine load64_congr fun x hx => hmem.bytes x (fun r hr => ?_) fun hswap => ?_
    · exact apart_not_inRange (hapart r hr) (inRange_ring_of_rfdField (i := k) hv hk hx)
    · have hout := rfdField_disjoint (i := k) (j := i.toNat) hv hk hi (fun heq => hfresh ⟨hswap, heq⟩) hx
      simpa [rfdField, rfdSlot] using hout

/-! ### The loop of R225 -/

/-- A slot with no data keeps its buffer, and so do those after it. -/
theorem assembleLoop_no_data (n : Nat) (slot : Half) (got : List Buf) (s : State) :
    assembleLoop n slot 0 got s = .chain got s := by
  induction n generalizing slot with
  | zero => rfl
  | succ n ih => simp [assembleLoop, ih]

section
variable {n left : Nat} {slot : Half} (hd : 0 < min left u.cfg.rxBufSize) (hb : postedBuf u slot = some b)
include hd hb

theorem assembleLoop_acquired (ha : acquire slot (min left u.cfg.rxBufSize) b u = (some g, v)) :
    assembleLoop (n + 1) slot left got u =
      assembleLoop n (inc slot 1 v.cfg.nRfd) (left - min left u.cfg.rxBufSize) (got ++ [g]) v := by
  rw [assembleLoop]
  simp only [if_neg hd.ne', hb, ha]

theorem assembleLoop_lost (ha : acquire slot (min left u.cfg.rxBufSize) b u = (none, v)) :
    assembleLoop (n + 1) slot left got u = .lost (freeAll got v) := by
  rw [assembleLoop]
  simp only [if_neg hd.ne', hb, ha]

end

/-! ### One slot of a run -/

theorem TierFits.of_free {a : BufAnswer} (hgiven : tierGiven tier = some a)
    (hfree : freeAmong u.cfg.bufAlign (takenRegions u) (answerRegion u.cfg.rxBufSize a) = true)
    (hring : ∀ a, tier = .replaced a → a.extra = 0 ∧ a.phys ≠ 0#64) : TierFits u tier := by
  cases tier with
  | replaced e =>
    obtain rfl : e = a := Option.some.inj hgiven
    obtain ⟨hextra, hphys⟩ := hring e rfl
    simp [TierFits, bufAnswerFits, hfree, hextra, hphys]
  | copied e =>
    obtain rfl : e = a := Option.some.inj hgiven
    simp [TierFits, bufAnswerFits, hfree]
  | spare => cases hgiven

section
variable (h : ChainRun s start len ts rest)
include h

theorem ChainRun.slot_inside (i : Nat) : (chainSlot s start i).toNat < s.cfg.nRfd := inc_lt (Cfg.nRfd_pos h.valid)

theorem ChainRun.posted (i : Nat) : ∃ b, s.rx.mbuf[(chainSlot s start i).toNat]? = some (some b) := by
  have hlt : (chainSlot s start i).toNat < s.rx.mbuf.length := h.length ▸ h.slot_inside i
  obtain ⟨b, hb⟩ := Option.ne_none_iff_exists'.1 (h.filled _ (List.getElem_mem hlt))
  exact ⟨b, by rw [List.getElem?_eq_getElem hlt, hb]⟩

theorem ChainRun.slot_inj {i j : Nat} (hi : i < s.cfg.nRfd) (hj : j < s.cfg.nRfd) :
    (chainSlot s start i).toNat = (chainSlot s start j).toNat ↔ i = j :=
  (Cfg.ringLengths_of_valid h.valid).1.toNat_inc_inj start hi hj

theorem ChainRun.slot_succ (i : Nat) : inc (chainSlot s start i) 1 s.cfg.nRfd = chainSlot s start (i + 1) :=
  (Cfg.ringLengths_of_valid h.valid).1.inc_inc start i 1

theorem ChainRun.slot_zero : chainSlot s start 0 = start := (Cfg.ringLengths_of_valid h.valid).1.inc_zero h.start

end

section
variable (hu : Chained s start len ts later got u)
include hu

theorem Chained.cfg_eq : u.cfg = s.cfg := by rw [hu.state]

theorem Chained.rx_eq : u.rx = { s.rx with mbuf := u.rx.mbuf } := by rw [hu.state]

theorem Chained.rfdSlot_eq (i : Half) : rfdSlot u i = rfdSlot s i := by rw [rfdSlot, rfdSlot, hu.cfg_eq, hu.rx_eq]

theorem Chained.takenRegions_eq : takenRegions u = (bufRegions s (chainGiven ts)).reverse ++ takenRegions s := by
  rw [hu.state]
  exact List.append_assoc _ _ _

/-- A slot not served yet has its buffer. -/
theorem Chained.posted (h : ChainRun s start len (ts ++ ts') rest) {i : Nat} (hi : ts.length ≤ i) (hn : i < s.cfg.nRfd) :
    ∃ b, s.rx.mbuf[(chainSlot s start i).toNat]? = some (some b) ∧
      u.rx.mbuf[(chainSlot s start i).toNat]? = some (some b) ∧ postedBuf u (chainSlot s start i) = some b := by
  obtain ⟨b, hb⟩ := h.posted i
  have hkept : u.rx.mbuf[(chainSlot s start i).toNat]? = some (some b) := by
    rw [hu.others _ fun j hj => mt (h.slot_inj hn (by omega)).1 (by omega), hb]
  exact ⟨b, hb, hkept, by simp [postedBuf, List.getD_eq_getElem?_getD, hkept]⟩

theorem Chained.tierFits (h : ChainRun s start len (ts ++ tier :: ts') rest) : TierFits u tier := by
  cases hgiven : tierGiven tier with
  | some a =>
    obtain ⟨hfresh, hring⟩ := h.answers
    have hlist : chainGiven (ts ++ tier :: ts') = chainGiven ts ++ a :: chainGiven ts' := by simp [chainGiven, hgiven]
    rw [hlist, bufRegions, List.map_append, freshRegions_append, List.map_cons, freshRegions_cons] at hfresh
    refine .of_free hgiven ?_ fun e he => hring e (by simp [he])
    rw [hu.takenRegions_eq, hu.cfg_eq]
    exact hfresh.2.1
  | none =>
    cases tier with
    | replaced a => cases hgiven
    | copied a => cases hgiven
    | spare =>
      have hspares := h.spares
      have hpool : u.pool.spare = s.pool.spare.drop (ts.count .spare) := by rw [hu.state]
      rw [List.count_append, List.count_cons_self] at hspares
      rw [TierFits, hpool, ne_eq, List.drop_eq_nil_iff]
      omega

end

theorem ChainRun.lt_inside (h : ChainRun s start len (ts ++ tier :: ts') rest) : ts.length < s.cfg.nRfd := by
  have hinside := h.inside
  rw [List.length_append, List.length_cons] at hinside
  omega

/-! ### A slot joins the run -/

/-- The slots served before keep what they have. -/
theorem Served.others (h : ChainRun s start len (ts ++ tier :: ts') rest)
    (hserved : Served u (chainSlot s start ts.length) d tier later b g now v) {i : Nat} (hi : i < ts.length) :
    v.rx.mbuf[(chainSlot s start i).toNat]? = u.rx.mbuf[(chainSlot s start i).toNat]? := by
  have hlt := h.lt_inside
  rw [hserved.rx_eq, List.getElem?_set_ne]
  exact mt (h.slot_inj hlt (by omega)).1 (by omega)

section
variable {before : List (Option BufAnswer)} (hu : Chained s start len ts before got u)
  (h : ChainRun s start len (ts ++ tier :: ts') rest)
  (hserved : Served u (chainSlot s start ts.length) (chunk s.cfg len ts.length) tier later b g now v)
  (hb : u.rx.mbuf[(chainSlot s start ts.length).toNat]? = some (some b))
include hu h hserved hb

theorem Chained.memory_snoc (hm : Memory.wf s.mem = true) : ChainMemory s start (ts ++ [tier]) v := by
  have hmem := hu.memory hm
  have hstep := hserved.memory hmem.wf
  have hpool : u.pool.spare = s.pool.spare.drop (ts.count .spare) := by rw [hu.state]
  have hfills {r : Region} : r ∈ chainFills s.cfg s.pool.spare (ts ++ [tier]) ↔
      r ∈ chainFills s.cfg s.pool.spare ts ∨ r ∈ chainFills u.cfg u.pool.spare [tier] := by
    rw [mem_chainFills_append, hu.cfg_eq, hpool]
  refine ⟨hstep.wf, fun x hx hslots => ?_, fun hapart k hk hholds => ?_⟩
  · rw [hstep.bytes x (fun r hr => hx r (hfills.2 (.inr hr))) fun hswap => ?_]
    · exact hmem.bytes x (fun r hr => hx r (hfills.2 (.inl hr))) fun i hi => hslots i (swapsAt_append_singleton.2 (.inl hi))
    · rw [hu.rfdSlot_eq]
      exact hslots ts.length (swapsAt_append_singleton.2 (.inr ⟨rfl, hu.cfg_eq ▸ hswap⟩))
  · refine hserved.descriptorHolds hmem.wf (hu.cfg_eq ▸ h.valid) (hu.cfg_eq ▸ h.slot_inside _) hb (fun r hr => ?_)
      (hu.cfg_eq ▸ hk) ?_
    · rw [hu.cfg_eq, hu.rx_eq]
      exact hapart r (hfills.2 (.inr hr))
    · have hbefore := hmem.posted (fun r hr => hapart r (hfills.2 (.inl hr))) k hk
      obtain hk | ⟨i, hi, rfl⟩ := hholds
      · exact .inl (hbefore (.inl hk))
      · obtain hi | ⟨rfl, hswap⟩ := swapsAt_append_singleton.1 hi
        · exact .inl (hbefore (.inr ⟨i, hi, rfl⟩))
        · exact .inr ⟨hu.cfg_eq ▸ hswap, rfl⟩

theorem Chained.snoc (hs : s.rx.mbuf[(chainSlot s start ts.length).toNat]? = some (some b)) :
    Chained s start len (ts ++ [tier]) later (got ++ [g]) v where
  state := by
    have hmbuf : v.rx.mbuf = u.rx.mbuf.set (chainSlot s start ts.length).toNat (some now) := by rw [hserved.rx_eq]
    refine hserved.state.trans ?_
    rw [hmbuf]
    generalize v.mem = m
    rw [hu.state]
    simp [chainGiven_append, bufRegions, Nat.add_assoc]
  length := by simp [hu.length]
  total := by
    rw [List.map_append, List.sum_append, hu.total, List.length_append, List.length_singleton, ← min_add_chunk]
    simp [hserved.serves.len_eq]
  served i e he := by
    obtain ⟨hi, -⟩ := List.getElem?_eq_some_iff.1 he
    rw [List.length_append, List.length_singleton] at hi
    rcases Nat.lt_succ_iff_lt_or_eq.1 hi with hi | rfl
    · rw [List.getElem?_append_left hi] at he
      rw [hserved.others h hi, List.getElem?_append_left (hu.length ▸ hi),
        List.take_append_of_le_length hi.le]
      exact hu.served i e he
    · obtain rfl : tier = e := by simpa using he
      obtain ⟨hlt, -⟩ := List.getElem?_eq_some_iff.1 hb
      have hserves := hserved.serves
      have hnext : u.env.nextBuf = s.env.nextBuf + (chainGiven ts).length := by rw [hu.state]
      have hpool : u.pool.spare = s.pool.spare.drop (ts.count .spare) := by rw [hu.state]
      rw [hu.cfg_eq, hnext, hpool] at hserves
      refine ⟨b, g, now, hs, by simp [← hu.length], ?_, by simpa using hserves⟩
      rw [hserved.rx_eq]
      exact List.getElem?_set_self hlt
  others k hk := by
    rw [List.length_append, List.length_singleton] at hk
    rw [hserved.rx_eq]
    dsimp only
    rw [List.getElem?_set_ne (hk _ (Nat.lt_succ_self _)).symm]
    exact hu.others k fun i hi => hk i (hi.trans (Nat.lt_succ_self _))
  memory := Chained.memory_snoc hu h hserved hb

end

/-! ### A run of slots -/

/-- The next slot of a run. -/
theorem Chained.step (h : ChainRun s start len (ts ++ tier :: ts') rest)
    (hu : Chained s start len ts ((tier :: ts').flatMap tierAnswers ++ rest) got u) (n : Nat) :
    ∃ g v, assembleLoop (n + 1) (chainSlot s start ts.length) (len - ts.length * s.cfg.rxBufSize) got u =
        assembleLoop n (chainSlot s start (ts.length + 1)) (len - (ts.length + 1) * s.cfg.rxBufSize) (got ++ [g]) v ∧
      Chained s start len (ts ++ [tier]) (ts'.flatMap tierAnswers ++ rest) (got ++ [g]) v := by
  have hlt : ts.length < (ts ++ tier :: ts').length := by simp
  have hdata := h.data _ hlt
  obtain ⟨-, -, hsize⟩ := Cfg.rx_of_valid h.valid
  obtain ⟨b, hs, hb, hposted⟩ := hu.posted h le_rfl h.lt_inside
  have hcfg := hu.cfg_eq
  have halloc : u.env.alloc = tierAnswers tier ++ (ts'.flatMap tierAnswers ++ rest) := by
    rw [hu.state]
    simp
  have hfull (a : BufAnswer) (ha : tier = .copied a) : chunk s.cfg len ts.length = u.cfg.rxBufSize := by
    have hall := Nat.le_trans (Nat.mul_le_mul_right s.cfg.rxBufSize (Nat.succ_le_of_lt hlt)) (h.full a (by simp [ha]))
    rw [Nat.succ_mul] at hall
    rw [chunk, hcfg]
    omega
  obtain ⟨g, now, v, hacquire, hserved⟩ :=
    acquire_served hb halloc (hu.tierFits h) (hcfg ▸ Nat.min_le_right _ _ : chunk s.cfg len ts.length ≤ _) hfull
  refine ⟨g, v, ?_, Chained.snoc hu h hserved hb hs⟩
  have hloop := assembleLoop_acquired (n := n) (got := got) (left := len - ts.length * s.cfg.rxBufSize) (g := g) (v := v)
    (by rw [hcfg]; omega) hposted (by rw [hcfg]; exact hacquire)
  rw [hloop, hserved.cfg_eq, hcfg, h.slot_succ]
  exact congrArg (assembleLoop n _ · _ _) (sub_chunk s.cfg len ts.length)

/-- Every slot of a run, one after another. -/
theorem Chained.run (h : ChainRun s start len (ts ++ ts') rest)
    (hu : Chained s start len ts (ts'.flatMap tierAnswers ++ rest) got u) (n : Nat) :
    ∃ l v, assembleLoop (ts'.length + n) (chainSlot s start ts.length) (len - ts.length * s.cfg.rxBufSize) got u =
        assembleLoop n (chainSlot s start (ts.length + ts'.length)) (len - (ts.length + ts'.length) * s.cfg.rxBufSize) l v ∧
      Chained s start len (ts ++ ts') rest l v := by
  induction ts' generalizing ts got u with
  | nil => exact ⟨got, u, by simp, by simpa using hu⟩
  | cons tier ts' ih =>
    obtain ⟨g, v, hstep, hv⟩ := Chained.step h hu (ts'.length + n)
    obtain ⟨l, w, hrun, hw⟩ := ih (ts := ts ++ [tier]) (by simpa using h) hv
    refine ⟨l, w, ?_, by simpa using hw⟩
    rw [List.length_append, List.length_singleton] at hrun
    rw [List.length_cons, Nat.add_right_comm, hstep, hrun, Nat.add_assoc ts.length, Nat.add_comm 1]

/-- The slots that the tiers serve, from the first on. -/
theorem ChainRun.assembleLoop_eq (h : ChainRun s start len ts rest) (n : Nat) :
    ∃ l u, assembleLoop (ts.length + n) start len [] s =
        assembleLoop n (chainSlot s start ts.length) (len - ts.length * s.cfg.rxBufSize) l u ∧
      Chained s start len ts rest l u := by
  have hstart := chained_start s start len
  rw [h.alloc] at hstart
  obtain ⟨l, u, hloop, hu⟩ := Chained.run (ts := []) h hstart n
  rw [List.length_nil, h.slot_zero, Nat.zero_mul, Nat.sub_zero, Nat.zero_add] at hloop
  exact ⟨l, u, hloop, hu⟩

end

end Sys2Proof.Machine
end

section
/-! SUPPORT. O26: the chain of a frame whose buffers are all replaced (43_buffer_pool.md R225, R226). -/

namespace Sys2Proof.Machine

variable {s : State} {c : Cfg} {ps : List BufAnswer}

/-! ### New buffers at every slot (R221) -/

/-- Every slot gets a new buffer. -/
def replacing (ps : List BufAnswer) : List Tier := ps.map .replaced

@[simp] theorem length_replacing (ps : List BufAnswer) : (replacing ps).length = ps.length := List.length_map _

@[simp] theorem flatMap_tierAnswers_replacing (ps : List BufAnswer) : (replacing ps).flatMap tierAnswers = ps.map some := by
  induction ps with
  | nil => rfl
  | cons a ps ih => exact congrArg (some a :: ·) ih

@[simp] theorem chainGiven_replacing (ps : List BufAnswer) : chainGiven (replacing ps) = ps := by
  simp [chainGiven, replacing, List.filterMap_map, Function.comp_def, tierGiven]

@[simp] theorem count_spare_replacing (ps : List BufAnswer) : (replacing ps).count .spare = 0 := by
  simp [replacing, List.count_eq_zero]

theorem chainFills_replacing (c : Cfg) (spare : List Buf) (ps : List BufAnswer) :
    chainFills c spare (replacing ps) = ps.map (answerRegion c.rxBufSize) := by
  simp [chainFills]

theorem swapsAt_replacing {i : Nat} : SwapsAt c (replacing ps) i ↔ i < ps.length := by
  refine ⟨fun h => by simpa using h.lt, fun h => ?_⟩
  simp [SwapsAt, replacing, List.getElem?_eq_getElem h, swapsIn]

theorem chainAnswers_replacing (h : RxAnswers s (takenRegions s) ps) : ChainAnswers s (replacing ps) := by
  obtain ⟨hfresh, hring⟩ := h
  exact ⟨by simpa using hfresh, fun a ha => hring a (by simpa [replacing] using ha)⟩

/-! ### How many buffers hold data (R225) -/

section
variable {len size : Nat} (hsize : 0 < size)
include hsize

theorem lt_buffers_iff {i : Nat} : i < (len + size - 1) / size ↔ i * size < len := by
  rw [← Nat.succ_le_iff, Nat.le_div_iff_mul_le hsize, Nat.succ_mul]
  omega

theorem buffers_le_iff {n : Nat} : (len + size - 1) / size ≤ n ↔ len ≤ n * size := by
  rw [← Nat.not_lt, lt_buffers_iff hsize, Nat.not_lt]

end

end Sys2Proof.Machine

open Sys2Proof Sys2Proof.Machine

/-- Settles O26: the slots with data are served one after another (`ChainRun.assembleLoop_eq`), the others hold CRC bytes only. -/
theorem jumboFrameBecomesAChain : Obligations.JumboFrameBecomesAChain := by
  unfold Obligations.JumboFrameBecomesAChain
  intro s start n len k ps rest hv hm hn hinside hstart hlength hfilled hlen hk halloc hps hanswers hlive
  obtain ⟨-, -, hsize⟩ := Cfg.rx_of_valid hv
  have hkn : k ≤ n := hk ▸ (buffers_le_iff hsize).2 hlen
  have hcover : len ≤ k * s.cfg.rxBufSize := (buffers_le_iff hsize).1 hk.ge
  have h : ChainRun s start len (replacing ps) rest := {
    valid := hv, start := hstart, length := hlength, filled := hfilled
    inside := by rw [length_replacing]; omega
    data := fun i hi => (lt_buffers_iff hsize).1 (by rw [length_replacing] at hi; omega)
    full := fun a ha => by simp [replacing] at ha
    alloc := by simpa using halloc
    spares := by simp
    answers := chainAnswers_replacing hanswers }
  obtain ⟨l, t, hloop, ht⟩ := h.assembleLoop_eq (n - k)
  have hlast : len - k * s.cfg.rxBufSize = 0 := Nat.sub_eq_zero_of_le hcover
  rw [length_replacing, hps, Nat.add_sub_cancel' hkn, hlast, assembleLoop_no_data] at hloop
  have hmem := ht.memory hm
  have hserved (j : Nat) (hj : j < k) := ht.served j (.replaced (ps[j]'(hps ▸ hj))) (by simp [replacing, hps, hj])
  refine ⟨l, t, ?assembled, ?length, ?total, fun j b hb => ?chain, fun j hj => ?posted, fun i hi => ?others, fun x hx => ?bytes,
    ?alloc, ?live, ?pool, ?_, ?_, ?_, ?_, ?_⟩
  case assembled => rw [assemble, if_neg hn.ne', hloop]
  case length => rw [ht.length, length_replacing, hps]
  case total => rw [ht.total, length_replacing, hps, Nat.min_eq_left hcover]
  case chain =>
    obtain ⟨hj, -⟩ := List.getElem?_eq_some_iff.1 hb
    rw [ht.length, length_replacing, hps] at hj
    obtain ⟨b0, g, now, hb0, hg, -, rfl, -⟩ := hserved j hj
    exact ⟨b0, hb0, (Option.some.inj (hg.symm.trans hb)).symm⟩
  case posted =>
    obtain ⟨b0, g, now, -, -, hnow, -, -, hphys, hfit⟩ := hserved j hj
    have hring : ∀ r ∈ chainFills s.cfg s.pool.spare (replacing ps), apart (rfdRing s.cfg s.rx.rfdPhys) r = true := by
      intro r hr
      rw [chainFills_replacing] at hr
      rw [apart_comm]
      exact apart_of_freshRegions hanswers.1 hr (List.mem_append_left _ hlive)
    have hholds := hmem.posted hring _ (h.slot_inside j) (.inr ⟨j, swapsAt_replacing.2 (hps ▸ hj), rfl⟩) now hnow
    rw [BitVec.ofNat_toNat, BitVec.setWidth_eq, ht.rfdSlot_eq] at hholds
    exact ⟨now, hnow, hfit, by simp [hphys, hps, hj], hholds⟩
  case others => exact ht.others i fun j hj => hi j (by simpa [hps] using hj)
  case bytes =>
    refine hmem.bytes x (fun r hr => hx r ?_) fun j hj => ?_
    · rw [chainFills_replacing] at hr
      exact List.mem_append_right _ hr
    · have hj := hps ▸ swapsAt_replacing.1 hj
      exact hx (rfdRegion s (chainSlot s start j)) (List.mem_append_left _ (List.mem_map_of_mem (List.mem_range.2 hj)))
  case pool =>
    rw [ht.state]
    simp
  case live =>
    rw [ht.state, chainGiven_replacing]
  all_goals rw [ht.state]
end

section
/-! SUPPORT. O27: a chain that fails after any mixture of tiers (43_buffer_pool.md R227). -/

namespace Sys2Proof.Machine

variable {s u : State} {start : Half} {len : Nat} {ts : List Tier} {rest later : List (Option BufAnswer)} {got : List Buf}

/-- A slot that is full is served as the statement of R227 has it. -/
theorem slotServed_of_tierServes {i : Nat} {b g now : Buf} {tier : Tier}
    (h : TierServes s.cfg (s.env.nextBuf + (chainGiven (ts.take i)).length) (s.pool.spare.drop ((ts.take i).count .spare))
      s.cfg.rxBufSize b g now tier) : SlotServed s ts i b g now tier := by
  cases tier with
  | replaced a => exact h
  | copied a => exact h
  | spare =>
    obtain ⟨p, hp, h⟩ := h
    exact ⟨p, by rw [← hp, List.head?_drop], h⟩

/-- The memory the core holds, posted or spare, is apart from each ring. -/
theorem heldRegion_apart_ring (hr : RegionsSound s) (hu : s.flags.ringsUp = true) {p r : Region} (hp : p ∈ heldRegions s)
    (hring : r ∈ ringRegions s) : apart p r = true := by
  obtain ⟨hlive, -, l, hperm, hl⟩ := hr
  have hcore : (coreRegions s).Pairwise fun p q => apart p q = true :=
    (hperm.pairwise_iff fun h => by rwa [apart_comm]).1 (hlive.sublist hl)
  refine (List.pairwise_append.1 hcore).2.2 p hp r ?_
  rwa [ringsInUse, if_pos hu]

/-- A ring that stands is among the regions given out. -/
theorem ring_live (hr : RegionsSound s) (hu : s.flags.ringsUp = true) {r : Region} (hring : r ∈ ringRegions s) :
    r ∈ s.env.live := by
  obtain ⟨-, -, hcore⟩ := hr
  refine hcore.subset (List.mem_append_right _ ?_)
  rwa [ringsInUse, if_pos hu]

/-- No buffer that the tiers fill stands in the free ring. -/
theorem chainFills_apart_ring (hanswers : ChainAnswers s ts) (hu : s.flags.ringsUp = true) (hrx : RxSound s)
    (hr : RegionsSound s) : ∀ r ∈ chainFills s.cfg s.pool.spare ts, apart (rfdRing s.cfg s.rx.rfdPhys) r = true := by
  have hring : rfdRing s.cfg s.rx.rfdPhys ∈ ringRegions s := by simp [ringRegions, rfdRing]
  intro r hmem
  rw [apart_comm]
  rcases List.mem_append.1 hmem with hgiven | hspare
  · exact apart_of_freshRegions hanswers.1 hgiven (List.mem_append_left _ (ring_live hr hu hring))
  · split at hspare
    · obtain ⟨p, hp, rfl⟩ := List.mem_map.1 hspare
      have hp := List.mem_of_mem_take hp
      obtain ⟨-, -, -, hfit⟩ := hrx
      have hregion : bufRegion p = spareRegion s.cfg p := by rw [bufRegion, (hfit p hp).1, spareRegion]
      exact hregion ▸ heldRegion_apart_ring hr hu (List.mem_map_of_mem (List.mem_append_right _ hp)) hring
    · cases hspare

section
variable (hu : Chained s start len ts later got u)
include hu

/-- After a run every slot has a buffer still. -/
theorem Chained.filled (hfilled : ∀ e ∈ s.rx.mbuf, e ≠ none) : ∀ e ∈ u.rx.mbuf, e ≠ none := by
  intro e he
  obtain ⟨k, hk⟩ := List.mem_iff_getElem?.1 he
  by_cases hslot : ∃ i < ts.length, k = (chainSlot s start i).toNat
  · obtain ⟨i, hi, rfl⟩ := hslot
    obtain ⟨b, g, now, -, -, hnow, -⟩ := hu.served i _ (List.getElem?_eq_getElem hi)
    obtain rfl : some now = e := Option.some.inj (hnow.symm.trans hk)
    exact Option.some_ne_none now
  · rw [hu.others k fun i hi heq => hslot ⟨i, hi, heq⟩] at hk
    exact hfilled e (List.mem_of_getElem? hk)

theorem Chained.bytes (hm : Memory.wf s.mem = true) (hspares : s.pool.spare.length = ts.count .spare) :
    SameBytesOutside u s (bufRegions s (chainGiven ts) ++
      ((List.range ts.length).filter fun i => ts[i]?.any (swapsIn s.cfg)).map (fun i => rfdRegion s (chainSlot s start i)) ++
      (if s.cfg.spareMode = .copyIntoSpare then s.pool.spare.map (spareRegion s.cfg) else [])) := by
  intro x hx
  refine (hu.memory hm).bytes x (fun r hr => hx r ?_) fun i hi => hx (rfdRegion s (chainSlot s start i)) ?_
  · rw [chainFills, ← hspares, List.take_length] at hr
    exact (List.mem_append.1 hr).elim (fun hr => List.mem_append_left _ (List.mem_append_left _ hr)) (List.mem_append_right _)
  · refine List.mem_append_left _ (List.mem_append_right _ (List.mem_map_of_mem (List.mem_filter.2 ⟨?_, hi⟩)))
    exact List.mem_range.2 hi.lt

theorem Chained.descriptorsPosted (hanswers : ChainAnswers s ts) (hm : Memory.wf s.mem = true)
    (hup : s.flags.ringsUp = true) (hrx : RxSound s) (hr : RegionsSound s) (hposted : DescriptorsPosted s) :
    DescriptorsPosted u := by
  intro k hk
  rw [hu.cfg_eq] at hk
  exact (hu.memory hm).posted (chainFills_apart_ring hanswers hup hrx hr) k hk (.inl (hposted k hk))

/-- The chain of a run freed, once the allocator has given nothing more (R227). -/
theorem Chained.freeAll_eq : freeAll got (u.setEnv { u.env with alloc := rest }) = { s with
    rx := { s.rx with mbuf := u.rx.mbuf }
    pool := { s.pool with spare := s.pool.spare.drop (ts.count .spare) }
    mem := u.mem
    env := { s.env with
      alloc := rest, nextBuf := s.env.nextBuf + (chainGiven ts).length,
      live := ((bufRegions s (chainGiven ts)).reverse ++ s.env.live).diff (got.map bufRegion) }
    trace := (got.map Act.bufFree).reverse ++ s.trace } := by
  rw [Machine.freeAll_eq, hu.state]
  rfl

end

end Sys2Proof.Machine

open Sys2Proof Sys2Proof.Machine

/-- Settles O27: the slots before the one that fails are served (`ChainRun.assembleLoop_eq`), then the chain is freed. -/
theorem chainFailureFreesTheChain : Obligations.ChainFailureFreesTheChain := by
  unfold Obligations.ChainFailureFreesTheChain
  intro s start n len ts rest hv hn hinside hstart hlength hfilled hshort hdata halloc hspares hanswers slot
  obtain ⟨-, -, hsize⟩ := Cfg.rx_of_valid hv
  have hfull {i : Nat} (hi : i < ts.length) : (i + 1) * s.cfg.rxBufSize < len :=
    (Nat.mul_le_mul_right _ (Nat.succ_le_of_lt hi)).trans_lt hdata
  have h : ChainRun s start len ts (none :: none :: rest) := {
    valid := hv, start := hstart, inside := by omega, length := hlength, filled := hfilled
    data := fun i hi => (Nat.mul_le_mul_right _ (Nat.le_succ i)).trans_lt (hfull hi)
    full := fun _ _ => hdata.le
    alloc := halloc, spares := hspares.ge, answers := hanswers }
  obtain ⟨m, rfl⟩ := Nat.exists_eq_add_of_lt hshort
  obtain ⟨l, u, hloop, hu⟩ := h.assembleLoop_eq (m + 1)
  obtain ⟨b, -, -, hposted⟩ := hu.posted (ts' := []) (by simpa using h) le_rfl (by omega)
  have hempty : u.pool.spare = [] := by
    rw [hu.state, ← hspares]
    exact List.drop_length
  have hleft : 0 < min (len - ts.length * s.cfg.rxBufSize) u.cfg.rxBufSize := by
    rw [hu.cfg_eq]
    omega
  have hlost := acquire_lost (s := u) (i := chainSlot s start ts.length) (b := b)
    (d := min (len - ts.length * s.cfg.rxBufSize) u.cfg.rxBufSize) (rest := rest) (by rw [hu.state]) hempty
  rw [assembleLoop_lost hleft hposted hlost] at hloop
  have hfreed := hu.freeAll_eq (rest := rest)
  rw [← hspares, List.drop_length] at hfreed
  generalize freeAll l (u.setEnv { u.env with alloc := rest }) = t at hloop hfreed
  have hcfg : t.cfg = u.cfg := by rw [hfreed, hu.cfg_eq]
  have hrx : t.rx = u.rx := by rw [hfreed, hu.rx_eq]
  have hmem : t.mem = u.mem := by rw [hfreed]
  have htrace : t.trace = (l.map Act.bufFree).reverse ++ s.trace := by rw [hfreed]
  rw [← hrx, ← hmem, ← htrace] at hfreed
  refine ⟨t, l, ?assembled, hu.length, newActs_of_trace htrace, fun i tier hi => ?served, hrx ▸ hu.others,
    hrx ▸ hu.filled hfilled, hfreed, fun hm => ⟨?bytes, fun hup hsound hregions hdesc => ?posted⟩⟩
  case assembled =>
    rw [assemble, if_neg hn.ne', Nat.add_assoc]
    exact hloop
  case served =>
    obtain ⟨b, g, now, hb, hg, hnow, hserves⟩ := hu.served i tier hi
    have hlt := hfull (List.getElem?_eq_some_iff.1 hi).1
    have hchunk : chunk s.cfg len i = s.cfg.rxBufSize := by
      rw [Nat.succ_mul] at hlt
      rw [chunk]
      omega
    exact ⟨b, g, now, hb, hg, hrx ▸ hnow, slotServed_of_tierServes (hchunk ▸ hserves)⟩
  case bytes =>
    rw [SameBytesOutside, hmem]
    exact hu.bytes hm hspares
  case posted =>
    have hall := hu.descriptorsPosted hanswers hm hup hsound hregions hdesc
    simp only [DescriptorsPosted, rfdSlot, hcfg, hrx, hmem] at hall ⊢
    exact hall
end

section
/-! SUPPORT. Two readings of a state that the operations of every engine leave as they were: the MAC as the mode table sees it
(60_exceptions.md R267), and the writes of the transmit doorbell in the record of acts (R258). -/

namespace Sys2Proof.Machine

/-! ### The readings -/

/-- What the mode table says of the MAC: whether its DMA is started, and `IMR` (R267). -/
structure MacMode where
  started : Bool
  imr : Word

/-- The MAC as the mode table sees it. -/
def macMode (s : State) : MacMode := { started := s.mac.started, imr := s.mac.regs.imr }

/-- An act is a write of the transmit doorbell, where the registers have offsets of their own (20_memory.md R80). -/
def isDoorbell (c : Cfg) (a : Act) : Bool := c.regmap.valid && isWriteTo c.regmap.tpdPidx.offset a

/-- How many writes of the transmit doorbell the record of acts shows. -/
def doorbells (s : State) : Nat := countActs (isDoorbell s.cfg) s

theorem doorbells_of_valid {s : State} (h : s.cfg.regmap.valid = true) :
    doorbells s = countActs (isWriteTo s.cfg.regmap.tpdPidx.offset) s := by
  have hacts : isDoorbell s.cfg = isWriteTo s.cfg.regmap.tpdPidx.offset := by
    funext a
    simp [isDoorbell, h]
  rw [doorbells, hacts]

/-- No act but a register write rings the doorbell. -/
@[simp] theorem isDoorbell_eq (c : Cfg) :
    (∀ e, isDoorbell c (.raised e) = false) ∧ (∀ l n v w, isDoorbell c (.inbound l n v w) = false) ∧
    isDoorbell c .regFlush = false ∧ isDoorbell c .fence = false ∧ isDoorbell c .flushBatch = false ∧
    isDoorbell c .signalResumable = false ∧ (∀ f b, isDoorbell c (.release f b) = false) ∧
    (∀ f, isDoorbell c (.sgUnmap f) = false) ∧ (∀ b, isDoorbell c (.bufFree b) = false) ∧
    (∀ a n, isDoorbell c (.dmaFree a n) = false) ∧ (∀ t, isDoorbell c (.log t) = false) ∧
    isDoorbell c .refillScheduled = false ∧ (∀ k b, isDoorbell c (.hw k b) = false) ∧
    ∀ i d l, isDoorbell c (.macFetch i d l) = false := by
  simp [isDoorbell, isWriteTo]

/-- Every register has an offset of its own, so that a write of another one is no doorbell. -/
theorem isDoorbell_regWrite {c : Cfg} {r : Reg} (h : r ≠ .tpdPidx) (w : Nat) (v : Word) :
    isDoorbell c (.regWrite (regInfo c r).offset w v) = false := by
  simp only [isDoorbell, isWriteTo, Bool.and_eq_false_iff, beq_eq_false_iff_ne]
  refine (Bool.eq_false_or_eq_true c.regmap.valid).symm.imp_right fun hv heq => h ?_
  exact regInfo_offset_injective hv heq

/-! ### State updates -/

@[simp] theorem doorbells_setters (s : State) :
    (∀ v, doorbells (s.setTx v) = doorbells s) ∧ (∀ v, doorbells (s.setRx v) = doorbells s) ∧
    (∀ v, doorbells (s.setPool v) = doorbells s) ∧ (∀ v, doorbells (s.setFlags v) = doorbells s) ∧
    (∀ v, doorbells (s.setStats v) = doorbells s) ∧ (∀ v, doorbells (s.setWdt v) = doorbells s) ∧
    (∀ v, doorbells (s.setLink v) = doorbells s) ∧ (∀ v, doorbells (s.setMedium v) = doorbells s) ∧
    (∀ v, doorbells (s.setIntrMask v) = doorbells s) ∧ (∀ v, doorbells (s.setMac v) = doorbells s) ∧
    (∀ v, doorbells (s.setMem v) = doorbells s) ∧ (∀ v, doorbells (s.setLate v) = doorbells s) ∧
    (∀ v, doorbells (s.setPosted v) = doorbells s) ∧ (∀ v, doorbells (s.setPuller v) = doorbells s) ∧
    (∀ v, doorbells (s.setForeign v) = doorbells s) ∧ (∀ v, doorbells (s.setEnv v) = doorbells s) ∧
    (∀ v, doorbells (s.setPending v) = doorbells s) ∧ (∀ v, doorbells (s.setResult v) = doorbells s) ∧
    ∀ f p, doorbells (s.setArgs f p) = doorbells s := by
  refine ⟨?_, ?_, ?_, ?_, ?_, ?_, ?_, ?_, ?_, ?_, ?_, ?_, ?_, ?_, ?_, ?_, ?_, ?_, ?_⟩ <;> intros <;> rfl

@[simp] theorem doorbells_emit {a : Act} {s : State} (h : isDoorbell s.cfg a = false) : doorbells (s.emit a) = doorbells s := by
  rw [doorbells, State.emit_cfg, countActs_emit, if_neg (by simp [h]), Nat.add_zero, doorbells]

/-- What leaves the configuration and the record alone. -/
theorem doorbells_congr {s t : State} (hc : t.cfg = s.cfg) (ht : t.trace = s.trace) : doorbells t = doorbells s := by
  simp only [doorbells, countActs, hc, ht]

@[simp] theorem macMode_setters (s : State) :
    (∀ v, macMode (s.setTx v) = macMode s) ∧ (∀ v, macMode (s.setRx v) = macMode s) ∧
    (∀ v, macMode (s.setPool v) = macMode s) ∧ (∀ v, macMode (s.setFlags v) = macMode s) ∧
    (∀ v, macMode (s.setStats v) = macMode s) ∧ (∀ v, macMode (s.setWdt v) = macMode s) ∧
    (∀ v, macMode (s.setLink v) = macMode s) ∧ (∀ v, macMode (s.setMedium v) = macMode s) ∧
    (∀ v, macMode (s.setIntrMask v) = macMode s) ∧ (∀ v, macMode (s.setMem v) = macMode s) ∧
    (∀ v, macMode (s.setLate v) = macMode s) ∧ (∀ v, macMode (s.setPosted v) = macMode s) ∧
    (∀ v, macMode (s.setPuller v) = macMode s) ∧ (∀ v, macMode (s.setForeign v) = macMode s) ∧
    (∀ v, macMode (s.setEnv v) = macMode s) ∧ (∀ v, macMode (s.setPending v) = macMode s) ∧
    (∀ v, macMode (s.setResult v) = macMode s) ∧ (∀ a, macMode (s.emit a) = macMode s) ∧
    ∀ f p, macMode (s.setArgs f p) = macMode s := by
  refine ⟨?_, ?_, ?_, ?_, ?_, ?_, ?_, ?_, ?_, ?_, ?_, ?_, ?_, ?_, ?_, ?_, ?_, ?_, ?_⟩ <;> intros <;> rfl

/-- What leaves the MAC alone. -/
theorem macMode_congr {s t : State} (h : t.mac = s.mac) : macMode t = macMode s := by simp only [macMode, h]

/-! ### Registers and events -/

@[simp] theorem macMode_regWrite {r : Reg} (h : r ≠ .imr) (v : Word) (s : State) : macMode (regWrite r v s) = macMode s := by
  cases r
  case imr => exact absurd rfl h
  all_goals rfl

@[simp] theorem doorbells_regWrite {r : Reg} (h : r ≠ .tpdPidx) (v : Word) (s : State) :
    doorbells (regWrite r v s) = doorbells s := by
  have hpost : doorbells (postReg r s) = doorbells s := doorbells_congr (by simp) (by simp)
  rw [regWrite, doorbells_emit (by simpa using isDoorbell_regWrite h _ v)]
  simpa using hpost

@[simp] theorem doorbells_reach (n : Nat) (s : State) : doorbells (reach n s) = doorbells s := by simp [reach]

@[simp] theorem doorbells_regFlush (s : State) : doorbells (regFlush s) = doorbells s := by simp [regFlush, reachAll]

@[simp] theorem doorbells_fence (s : State) : doorbells (fence s) = doorbells s := by simp [fence]

@[simp] theorem doorbells_raise (e : CoreEvent) (s : State) : doorbells (raise e s) = doorbells s := by simp [raise]

@[simp] theorem doorbells_log (t : LogText) (s : State) : doorbells (log t s) = doorbells s := by simp [log]

/-! ### Releases -/

@[simp] theorem doorbells_releaseFrame (f : Frame) (b : Bool) (s : State) : doorbells (releaseFrame f b s) = doorbells s := by
  simp [releaseFrame]

@[simp] theorem doorbells_releaseAll (l : List Frame) (s : State) : doorbells (releaseAll l s) = doorbells s := by
  induction l generalizing s with
  | nil => rfl
  | cons f rest ih => simp [releaseAll, ih]

@[simp] theorem doorbells_freeAll (l : List Buf) (s : State) : doorbells (freeAll l s) = doorbells s := by
  induction l generalizing s with
  | nil => rfl
  | cons b rest ih => simp [freeAll, bufFree, dropRegion, ih]

@[simp] theorem doorbells_dmaFree (a : Addr) (n : Nat) (s : State) : doorbells (dmaFree a n s) = doorbells s := by
  simp [dmaFree, dropRegion]

@[simp] theorem doorbells_signalResumable (s : State) : doorbells (signalResumable s) = doorbells s := by
  simp [signalResumable]

/-! ### Hardware calls -/

@[simp] theorem doorbells_hwReadLink (s : State) : doorbells (hwReadLink s).2 = doorbells s :=
  doorbells_congr (by simp) (by simp)

@[simp] theorem doorbells_hwCall (c : HwCall) (s : State) : doorbells (hwCall c s).2 = doorbells s := by
  have hbefore : doorbells (beforeCall c s) = doorbells s := doorbells_congr (by simp) (by simp)
  obtain ⟨e, -, h | ⟨d, h⟩⟩ := hwCall_cases c s <;> simp [h, hbefore]

@[simp] theorem doorbells_hwCalls (l : List HwCall) (s : State) : doorbells (hwCalls l s).2 = doorbells s := by
  induction l generalizing s with
  | nil => rfl
  | cons c rest ih =>
    unfold hwCalls
    rcases h : hwCall c s with ⟨_ | _, s1⟩ <;> cases congrArg Prod.snd h <;> simp [ih]

/-! ### The MAC agent -/

@[simp] theorem macMode_setStatus (m : Word) (s : State) : macMode (setStatus m s) = macMode s := rfl

@[simp] theorem macMode_macTx (k : Nat) (s : State) : macMode (macTx k s) = macMode s := by
  induction k generalizing s with
  | zero => rfl
  | succ k ih =>
    unfold macTx
    split
    · exact ih _
    · rfl

@[simp] theorem doorbells_macTx (k : Nat) (s : State) : doorbells (macTx k s) = doorbells s := by
  induction k generalizing s with
  | zero => rfl
  | succ k ih =>
    unfold macTx
    split
    · simp [ih, macTxOne, macFetchAct]
    · rfl

@[simp] theorem macMode_macStep (m : MacStep) (s : State) : macMode (macStep m s) = macMode s := by
  cases m with
  | txDone k irq => cases irq <;> simp [macStep]
  | rx bytes info irq =>
    simp only [macStep]
    split
    · cases irq <;> rfl
    · rfl
  | status mask => rfl
  | arrive r => rfl
  | reach n => rfl

@[simp] theorem doorbells_macStep (m : MacStep) (s : State) : doorbells (macStep m s) = doorbells s := by
  cases m with
  | txDone k irq => cases irq <;> simp [macStep, setStatus]
  | rx bytes info irq =>
    simp only [macStep]
    split
    · cases irq <;> exact doorbells_congr (by simp) (by simp)
    · rfl
  | status mask => rfl
  | arrive r => rfl
  | reach n => rfl

/-! ### Rings -/

@[simp] theorem doorbells_allocRegions (s : State) : doorbells (allocRegions s).2 = doorbells s := by
  have hgiven (n : Nat) (u : State) : doorbells (dmaAlloc n u).2 = doorbells u := doorbells_congr (by simp) (by simp)
  unfold allocRegions
  rcases h1 : dmaAlloc (txBytes s.cfg) s with ⟨_ | t, s1⟩ <;> cases congrArg Prod.snd h1 <;> dsimp only
  · simp [hgiven]
  rcases h2 : dmaAlloc (rrdBytes s.cfg) (dmaAlloc (txBytes s.cfg) s).2 with ⟨_ | r, s2⟩ <;>
    cases congrArg Prod.snd h2 <;> dsimp only
  · simp [hgiven]
  rcases h3 : dmaAlloc (rfdBytes s.cfg) (dmaAlloc (rrdBytes s.cfg) (dmaAlloc (txBytes s.cfg) s).2).2 with ⟨_ | q, s3⟩ <;>
    cases congrArg Prod.snd h3 <;> simp [hgiven]

@[simp] theorem doorbells_freeRings (s : State) : doorbells (freeRings s) = doorbells s := by simp [freeRings]

@[simp] theorem doorbells_dropArrays (s : State) : doorbells (dropArrays s) = doorbells s := rfl

@[simp] theorem doorbells_setupFail (s : State) : doorbells (setupFail s) = doorbells s := by simp [setupFail]

@[simp] theorem doorbells_ringSetup (s : State) : doorbells (ringSetup s) = doorbells s := by
  have hplaced (t r q : Addr) (n : Nat) (u : State) : doorbells (postBuffers n 0 (placeRings t r q u)).2 = doorbells u :=
    doorbells_congr (by simp) (by simp)
  have hdone (u : State) : doorbells (setupDone u) = doorbells u := doorbells_congr (by simp) (by simp)
  obtain ⟨s1, h1, h⟩ | ⟨t, r, q, s1, s2, h1, ⟨h2, h⟩ | ⟨h2, h⟩⟩ := ringSetup_cases s
  · cases congrArg Prod.snd h1
    simp [h]
  · cases congrArg Prod.snd h1
    cases congrArg Prod.snd h2
    simp [h, hdone, hplaced]
  · cases congrArg Prod.snd h1
    cases congrArg Prod.snd h2
    simp [h, unwind, hplaced]

@[simp] theorem doorbells_txClear (s : State) : doorbells (txClear s) = doorbells s := by simp [txClear, holdLate]

@[simp] theorem doorbells_rxResetRings (s : State) : doorbells (rxResetRings s) = doorbells s :=
  doorbells_congr (by simp) (by simp)

@[simp] theorem doorbells_offerAll (s : State) : doorbells (offerAll s) = doorbells s := by simp [offerAll]

@[simp] theorem macMode_offerAll (s : State) : macMode (offerAll s) = macMode s := by simp [offerAll]

@[simp] theorem doorbells_ringTeardown (s : State) : doorbells (ringTeardown s) = doorbells s := by
  simp [ringTeardown, clearRxCursors, zeroRings, holdLate]

/-! ### Control -/

@[simp] theorem doorbells_writeIntrMask (m : Word) (s : State) : doorbells (writeIntrMask m s) = doorbells s := by
  simp [writeIntrMask]

@[simp] theorem doorbells_haltMac (s : State) : doorbells (haltMac s) = doorbells s := rfl

@[simp] theorem doorbells_resetForDisable (s : State) : doorbells (resetForDisable s) = doorbells s := by
  unfold resetForDisable
  rcases h : hwCall .macReset s with ⟨_ | _, s1⟩ <;> cases congrArg Prod.snd h <;> simp

@[simp] theorem doorbells_disableInterrupts (s : State) : doorbells (disableInterrupts s) = doorbells s := by
  simp [disableInterrupts]

@[simp] theorem doorbells_wdtArm (s : State) : doorbells (wdtArm s) = doorbells s := rfl

@[simp] theorem doorbells_wdtCancel (s : State) : doorbells (wdtCancel s) = doorbells s := rfl

@[simp] theorem doorbells_clearModeFlags (s : State) : doorbells (clearModeFlags s) = doorbells s := rfl

@[simp] theorem doorbells_refuse (s : State) : doorbells (refuse s) = doorbells s := rfl

end Sys2Proof.Machine
end

section
/-! SUPPORT. What the engines and the other agents keep of the mode table (60_exceptions.md R267): the flags, `IMR` and its mirror
and the MAC as they are, and with the gate closed no doorbell and a clean transmit side. -/

namespace Sys2Proof.Machine

/-! ### The relation -/

/-- The transmit side is clean: empty, every slot free and no frame held (R269). -/
structure TxClean (s : State) : Prop where
  next : s.tx.next = s.tx.dirty
  free : s.tx.numFree = BitVec.ofNat 32 s.cfg.nTx
  slots : s.tx.mbuf = List.replicate s.cfg.nTx none

/-- From `s` to `t` the mode is kept, and with the gate closed the doorbell is not written (R258). -/
structure KeepsMode (s t : State) : Prop where
  cfg : t.cfg = s.cfg
  flags : t.flags = s.flags
  intrMask : t.intrMask = s.intrMask
  mac : macMode t = macMode s
  doorbells : gateOpen s = false → doorbells t = doorbells s

/-- And with the gate closed a clean transmit side stays clean. -/
structure KeepsTable (s t : State) : Prop extends KeepsMode s t where
  clean : gateOpen s = false → TxClean s → TxClean t

variable {s t u : State}

theorem gateOpen_congr (h : t.flags = s.flags) : gateOpen t = gateOpen s := by simp only [gateOpen, h]

theorem TxClean.congr (hc : t.cfg = s.cfg) (ht : t.tx = s.tx) (h : TxClean s) : TxClean t :=
  ⟨by rw [ht]; exact h.next, by rw [ht, hc]; exact h.free, by rw [ht, hc]; exact h.slots⟩

/-- What the stall flag says is no part of it. -/
theorem TxClean.stalled (h : TxClean s) (b : Bool) : TxClean (s.setTx { s.tx with stalled := b }) := ⟨h.next, h.free, h.slots⟩

theorem KeepsMode.refl (s : State) : KeepsMode s s := ⟨rfl, rfl, rfl, rfl, fun _ => rfl⟩

theorem KeepsMode.trans (h : KeepsMode s t) (h' : KeepsMode t u) : KeepsMode s u where
  cfg := h'.cfg.trans h.cfg
  flags := h'.flags.trans h.flags
  intrMask := h'.intrMask.trans h.intrMask
  mac := h'.mac.trans h.mac
  doorbells := fun hg => (h'.doorbells ((gateOpen_congr h.flags).trans hg)).trans (h.doorbells hg)

theorem KeepsTable.refl (s : State) : KeepsTable s s := ⟨.refl s, fun _ => id⟩

theorem KeepsTable.trans (h : KeepsTable s t) (h' : KeepsTable t u) : KeepsTable s u :=
  ⟨h.toKeepsMode.trans h'.toKeepsMode, fun hg hs => h'.clean ((gateOpen_congr h.flags).trans hg) (h.clean hg hs)⟩

/-- What leaves the transmit side alone too keeps all of it. -/
theorem KeepsMode.keepsTable (h : KeepsMode s t) (htx : t.tx = s.tx) : KeepsTable s t :=
  ⟨h, fun _ hs => hs.congr h.cfg htx⟩

theorem KeepsTable.of_eq (hc : t.cfg = s.cfg) (hf : t.flags = s.flags) (hi : t.intrMask = s.intrMask)
    (hm : macMode t = macMode s) (hd : Machine.doorbells t = Machine.doorbells s) (htx : t.tx = s.tx) : KeepsTable s t :=
  KeepsMode.keepsTable ⟨hc, hf, hi, hm, fun _ => hd⟩ htx

/-- The stall flag raised or lowered. -/
theorem keepsTable_stalled (s : State) (b : Bool) : KeepsTable s (s.setTx { s.tx with stalled := b }) :=
  ⟨⟨rfl, rfl, rfl, rfl, fun _ => rfl⟩, fun _ hs => hs.stalled b⟩

/-! ### The PULLER (41_transmit.md R177) -/

/-- A published frame leaves the MAC's mode as it was: the doorbell is the one register written. -/
theorem macMode_fillPublish (f : Frame) (segs : List Seg) (ctx : Option Word) (s : State) :
    macMode (fillPublish f segs ctx s) = macMode s := by
  have hfill (vt : Half) (cmd : Word) (i : Half) (u : State) : macMode (fillData f vt cmd segs i u).2 = macMode u :=
    macMode_congr (by simp)
  cases ctx with
  | none => simp [fillPublish, fill, publish, fence, hfill]
  | some total => simp [fillPublish, fill, publish, fence, hfill, fillContext, setTxMbuf]

/-- With the gate closed an enqueue drops the frame (41_transmit.md R161). -/
theorem keepsTable_enqueue {m : TsoMode} {room : Bool} {f : Frame} (h : enqueue m room f s = .next t) : KeepsTable s t := by
  obtain ⟨hc, -, -, hf, -, -, -, hi, -⟩ := enqueue_frame h
  obtain ⟨-, ⟨-, rfl⟩ | ⟨-, -, rfl⟩ | ⟨segs, hg, -, -, ⟨-, -, rfl⟩ | ⟨-, -, m1, ctx, -, rfl⟩⟩⟩ := enqueue_cases h
  · exact .of_eq hc hf hi (macMode_congr (by simp)) (by simp [dropFrame]) (by simp)
  · exact .of_eq hc hf hi (macMode_congr (by simp)) (by simp [dropFrame]) (by simp)
  · exact ⟨⟨hc, hf, hi, macMode_congr (by simp), by simp [hg]⟩, by simp [hg]⟩
  · exact ⟨⟨hc, hf, hi, (macMode_fillPublish ..).trans (macMode_congr (by simp)), by simp [hg]⟩, by simp [hg]⟩

theorem keepsTable_beginPull (s : State) : KeepsTable s (beginPull s) := .of_eq rfl rfl rfl rfl rfl rfl

theorem keepsTable_pullStep (h : pullStep s = .next t) : KeepsTable s t := by
  obtain ⟨-, rfl⟩ | ⟨-, rfl⟩ | ⟨_, -, ⟨-, rfl⟩ | ⟨-, ⟨-, rfl⟩ | ⟨f, rest, -, rfl⟩⟩⟩ | ⟨f, u, -, hu, rfl⟩ := pullStep_cases h
  · exact .refl _
  · exact .of_eq rfl rfl rfl rfl rfl rfl
  · exact (keepsTable_stalled s true).trans (.of_eq rfl rfl rfl rfl rfl rfl)
  · exact .of_eq rfl rfl rfl rfl rfl rfl
  · exact .of_eq rfl rfl rfl rfl rfl rfl
  · exact (keepsTable_enqueue hu).trans (.of_eq rfl rfl rfl rfl rfl rfl)

theorem keepsTable_pullTurn (h : pullTurn s = .next t) : KeepsTable s t := by
  obtain rfl | ⟨-, ⟨-, -, rfl⟩ | ⟨-, hs⟩⟩ := pullTurn_cases h
  · exact .refl _
  · exact keepsTable_beginPull s
  · exact keepsTable_pullStep hs

/-! ### Other agents (00_scope.md R17) -/

theorem keepsTable_macStep (m : MacStep) (s : State) : KeepsTable s (macStep m s) :=
  .of_eq (by simp) (by simp) (by simp) (by simp) (by simp) (by simp)

theorem keepsTable_offerFrame (f : Frame) (s : State) : KeepsTable s (offerFrame f s) := .of_eq rfl rfl rfl rfl rfl rfl

theorem keepsTable_hostWrite (a : Addr) (l : List Byte) (s : State) : KeepsTable s (hostWrite a l s) :=
  .of_eq (by simp) (by simp) (by simp) (macMode_congr (by simp)) (doorbells_congr (by simp) (by simp)) (by simp)

theorem keepsTable_bufReturn (r : Region) (s : State) : KeepsTable s (bufReturn r s) :=
  .of_eq (by simp) (by simp) (by simp) (macMode_congr (by simp)) (doorbells_congr (by simp) (by simp)) (by simp)

theorem keepsTable_midStep (m : MidStep) (s : State) : KeepsTable s (midStep m s) := by
  obtain he | ⟨a, he⟩ | he | ⟨f, he⟩ | ⟨a, l, he⟩ | ⟨r, he⟩ := midStep_cases m s
  · rw [he]; exact .refl s
  · rw [he]; exact keepsTable_macStep a s
  · exact keepsTable_pullTurn he
  · rw [he]; exact keepsTable_offerFrame f s
  · rw [he]; exact keepsTable_hostWrite a l s
  · rw [he]; exact keepsTable_bufReturn r s

theorem keepsTable_macPoint (s : State) : KeepsTable s (macPoint s) :=
  macPoint_keeps (P := KeepsTable s) (fun _ h => h.trans (.of_eq rfl rfl rfl rfl rfl rfl))
    (fun m u h => h.trans (keepsTable_midStep m u)) (.refl s)

theorem keepsTable_flushOutbound (s : State) : KeepsTable s (flushOutbound s) :=
  flushLoop_keeps (P := KeepsTable s) (fun u h => h.trans (keepsTable_macPoint u))
    (fun f rest u h _ => h.trans (.of_eq rfl rfl rfl rfl (by simp) rfl)) _ (.refl s)

theorem keepsTable_finishPull (h : finishPull s = .next t) : KeepsTable s t :=
  pullRun_keeps (P := KeepsTable s) (fun u h => h.trans (keepsTable_macPoint u))
    (fun _ _ h hp => h.trans (keepsTable_pullStep hp)) _ (.refl s) h

/-- A point where the PULLER is not scheduled rings no doorbell, the gate open or closed. -/
theorem doorbells_macPoint (h : NoPull s) : doorbells (macPoint s) = doorbells s := by
  have hsteps (l : List MidStep) : ∀ u, .pull ∉ l → doorbells (macSteps l u) = doorbells u := by
    induction l with
    | nil => exact fun _ _ => rfl
    | cons m rest ih =>
      intro u hl
      have hm : doorbells (midStep m u) = doorbells u := by
        cases m with
        | mac a => exact doorbells_macStep a u
        | pull => simp at hl
        | offer f => rfl
        | hostWrite a l => exact doorbells_congr (by simp [midStep]) (by simp [midStep])
        | bufReturn r => exact doorbells_congr (by simp [midStep]) (by simp [midStep])
      rw [macSteps, ih _ (by simp_all), hm]
  refine (hsteps _ (dropPoint s) fun hm => ?_).trans (doorbells_congr (by simp) (by simp))
  cases hd : s.env.during with
  | nil => simp [hd] at hm
  | cons steps rest => exact h steps (by simp [hd]) (by simpa [hd] using hm)

/-! ### Reclaim (41_transmit.md R180 to R182) -/

theorem keepsMode_reclaimOne (s : State) : KeepsMode s (reclaimOne s) := by
  refine ⟨by simp, by simp, by simp, macMode_congr (by simp), fun _ => ?_⟩
  simp only [reclaimOne, addFree]
  split <;> simp [setTxMbuf]

/-- A clean transmit side has nothing to reclaim: the walk ends where it begins. -/
theorem keepsTable_reclaimMany (hin : consumerInside s = true) :
    KeepsTable s (reclaimMany (dist s.tx.dirty (hwConsumer s) s.cfg.nTx) s) := by
  refine ⟨reclaimMany_keeps (P := KeepsMode s) (fun u h => h.trans (keepsMode_reclaimOne u))
    (fun u h => h.trans (keepsTable_macPoint u).toKeepsMode) _ (.refl s), fun _ hs => ?_⟩
  have hnone : dist s.tx.dirty (hwConsumer s) s.cfg.nTx = 0 := by
    simpa [consumerInside, hs.next, dist_self] using hin
  rw [hnone]
  exact hs

theorem keepsTable_wake (s : State) : KeepsTable s (wake s) := by
  unfold wake
  split
  · exact (keepsTable_macPoint s).trans ((keepsTable_stalled _ false).trans
      ((keepsTable_macPoint _).trans (.of_eq rfl rfl rfl rfl (by simp) rfl)))
  · exact .refl s

theorem keepsTable_reclaim (h : reclaim s = .next t) : KeepsTable s t := by
  unfold reclaim at h
  split at h <;> cases h
  rename_i hin
  exact (keepsTable_reclaimMany hin).trans ((keepsTable_wake _).trans (.of_eq rfl rfl rfl rfl rfl rfl))

theorem keepsTable_reclaimIfEnabled (h : reclaimIfEnabled s = .next t) : KeepsTable s t := by
  unfold reclaimIfEnabled at h
  split at h
  · exact keepsTable_reclaim h
  · cases h
    exact .of_eq rfl rfl rfl rfl rfl rfl

/-! ### Receive (42_receive.md R190 to R201) -/

theorem keepsTable_acquire (i : Half) (d : Nat) (b : Buf) (s : State) : KeepsTable s (acquire i d b s).2 :=
  .of_eq (by simp) (by simp) (by simp) (macMode_congr (by simp)) (doorbells_congr (by simp) (by simp)) (by simp)

theorem keepsTable_freeAll (l : List Buf) (s : State) : KeepsTable s (freeAll l s) :=
  .of_eq (by simp) (by simp) (by simp) (macMode_congr (by simp)) (by simp) (by simp)

theorem keepsTable_recycle (k : Completion) (w : Word) (s : State) : KeepsTable s (recycle k w s) :=
  .of_eq (by simp) (by simp) (by simp) (by simp [recycle, fence]) (by simp [recycle]) (by simp)

theorem keepsTable_raise (e : CoreEvent) (s : State) : KeepsTable s (raise e s) :=
  .of_eq (by simp) (by simp) (by simp) (macMode_congr (by simp)) (by simp) (by simp)

theorem keepsTable_deliver (k : Completion) (l : List Buf) (s : State) : KeepsTable s (deliver k l s) :=
  .of_eq (by simp) (by simp) (by simp) (macMode_congr (by simp)) (by simp [deliver]) (by simp)

theorem keepsTable_drainOne (h : drainOne s = .next t) : KeepsTable s t := by
  have hl := assemble_leaves (P := KeepsTable s) (R := fun _ => True) (q := True) (fun _ _ _ => trivial)
    (fun _ _ _ _ _ => trivial) (fun u i d b hu _ => hu.trans (keepsTable_acquire i d b u))
    (fun l u hu => hu.trans (keepsTable_freeAll l u))
    (rrdCompletion s).count ((rrdCompletion s).len - s.cfg.crcLen) (i := (rrdCompletion s).start) trivial (.refl s)
  obtain ⟨-, s1, rfl, rfl | rfl | ⟨-, ⟨l, s2, he, rfl⟩ | ⟨s2, he, rfl⟩⟩⟩ := drainOne_cases h
  · exact (keepsTable_raise _ s).trans (keepsTable_recycle ..)
  · exact (keepsTable_raise _ s).trans (keepsTable_recycle ..)
  · rw [he] at hl
    exact KeepsTable.trans hl ((keepsTable_deliver ..).trans (keepsTable_recycle ..))
  · rw [he] at hl
    exact KeepsTable.trans hl ((keepsTable_raise ..).trans (keepsTable_recycle ..))

theorem keepsTable_drain {b : Option Nat} (h : drain b s = .next t) : KeepsTable s t := by
  unfold drain at h
  split at h
  · obtain ⟨u, hu, ht⟩ := andThen_eq_next.1 h
    have hloop : KeepsTable s u := drainLoop_keeps (P := KeepsTable s) (s := s.setResult (.count 0))
      (fun v hv => hv.trans (keepsTable_macPoint v)) (fun _ _ hv ho => hv.trans (keepsTable_drainOne ho)) _
      (.of_eq rfl rfl rfl rfl rfl rfl) hu
    unfold drainEnd at ht
    split at ht <;> cases ht
    refine hloop.trans (.of_eq (by simp) (by simp) (by simp) (macMode_congr (by simp)) ?_ (by simp))
    unfold refillCheck
    split <;> simp
  · cases h

theorem keepsTable_drainIfEnabled {b : Option Nat} (h : drainIfEnabled b s = .next t) : KeepsTable s t := by
  unfold drainIfEnabled at h
  split at h
  · exact keepsTable_drain h
  · cases h
    exact .of_eq rfl rfl rfl rfl rfl rfl

theorem keepsTable_rxService (h : rxService s = .next t) : KeepsTable s t := by
  obtain ⟨u, hu, ht⟩ := andThen_eq_next.1 h
  cases ht
  split
  · exact keepsTable_drain hu
  · exact (keepsTable_drain hu).trans (.of_eq rfl rfl rfl rfl (by simp [flushInboundBatch]) rfl)

theorem keepsTable_pollService {b : Option Nat} (h : pollService b s = .next t) : KeepsTable s t := by
  unfold pollService at h
  split at h
  · obtain ⟨u, hu, ht⟩ := andThen_eq_next.1 h
    exact (keepsTable_reclaim hu).trans (keepsTable_drain ht)
  · cases h
    exact .of_eq rfl rfl rfl rfl rfl rfl

/-- The engines of a dispatch, behind the log of an alert (60_exceptions.md R249 steps 2 and 3). -/
theorem keepsTable_serveEngines {w : Word} (h : serveEngines w (logAlert w s) = .next t) : KeepsTable s t := by
  have hlog : KeepsTable s (logAlert w s) := by
    unfold logAlert
    split
    · exact .of_eq rfl rfl rfl rfl (by simp) rfl
    · exact .refl s
  refine hlog.trans ?_
  unfold serveEngines at h
  split at h
  · cases h
    exact .refl _
  · obtain ⟨u, hu, ht⟩ := andThen_eq_next.1 h
    have htx : KeepsTable (logAlert w s) u := by
      unfold serveTx at hu
      split at hu
      · exact (keepsTable_macPoint _).trans (keepsTable_reclaimIfEnabled hu)
      · cases hu
        exact .refl _
    unfold serveRx at ht
    split at ht
    · exact htx.trans (keepsTable_rxService ht)
    · cases ht
      exact htx

/-! ### Operations of the engines -/

theorem keepsTable_txq {m : TsoMode} (h : (andThen (finishPull s) fun u => enqueue m true u.frameArg u) = .next t) :
    KeepsTable s t := by
  obtain ⟨u, hu, ht⟩ := andThen_eq_next.1 h
  exact (keepsTable_finishPull hu).trans (keepsTable_enqueue ht)

theorem keepsTable_execTxPull (h : execTxPull s = .next t) : KeepsTable s t := by
  obtain ⟨u, hu, hp⟩ := andThen_eq_next.1 h
  obtain ⟨v, hv, ht⟩ := andThen_eq_next.1 hp
  cases ht
  exact (keepsTable_finishPull hu).trans ((keepsTable_beginPull u).trans
    ((keepsTable_finishPull hv).trans (.of_eq rfl rfl rfl rfl rfl rfl)))

theorem keepsTable_refill (s : State) (r : Result) : KeepsTable s ((refill s).setResult r) :=
  .of_eq (by simp) (by simp) (by simp) (macMode_congr (by simp)) (doorbells_congr (by simp) (by simp)) (by simp)

/-- A hardware call that neither resets nor starts the MAC. -/
theorem keepsTable_advertise (m : BitVec 5) (s : State) : KeepsTable s (advertise m s) := by
  have hmac : macMode (hwCall (.setAdvertise m) s).2 = macMode s := by
    obtain ⟨e, -, h | ⟨d, h⟩⟩ := hwCall_cases (.setAdvertise m) s <;> rw [h] <;> rfl
  refine .of_eq (by simp) (by simp) (by simp) ?_ ?_ (by simp)
  · unfold advertise
    rcases h : hwCall (.setAdvertise m) s with ⟨_ | _, s1⟩ <;> cases congrArg Prod.snd h
    · exact (macMode_congr (by simp)).trans hmac
    · exact hmac
  · unfold advertise
    rcases h : hwCall (.setAdvertise m) s with ⟨_ | _, s1⟩ <;> cases congrArg Prod.snd h <;> simp

end Sys2Proof.Machine
end

section
/-! SUPPORT. The rows of the mode table (60_exceptions.md R267), which row each administrative operation ends in, and O55. -/

namespace Sys2Proof.Machine

variable {s t : State}

/-! ### The rows -/

/-- The row of DISABLED. -/
structure RowDisabled (s : State) : Prop where
  enabled : s.flags.enabled = false
  linkUp : s.flags.linkUp = false
  pollMode : s.flags.pollMode = false
  wdtArmed : s.flags.wdtArmed = false
  intrMask : s.intrMask = 0#32
  mac : macMode s = { started := false, imr := 0#32 }

/-- The row of DOWN, with a clean transmit side (R269). -/
structure RowDown (s : State) : Prop where
  enabled : s.flags.enabled = true
  linkUp : s.flags.linkUp = false
  wdtArmed : s.flags.wdtArmed = false
  ringsUp : s.flags.ringsUp = true
  intrMask : s.intrMask = imrDown s.cfg
  mac : macMode s = { started := true, imr := imrDown s.cfg }
  clean : TxClean s

/-- The row of UP. -/
structure RowUp (s : State) : Prop where
  enabled : s.flags.enabled = true
  linkUp : s.flags.linkUp = true
  wdtArmed : s.flags.wdtArmed = true
  ringsUp : s.flags.ringsUp = true
  intrMask : s.intrMask = imrFull s.cfg
  mac : macMode s = { started := true, imr := imrFull s.cfg }

theorem modeSound_iff : ModeSound s ↔ RowDisabled s ∨ RowDown s ∨ RowUp s := by
  constructor
  · rintro ⟨hoff, hon, hclean⟩
    cases he : s.flags.enabled with
    | false =>
      obtain ⟨hl, hp, hw, hs, hi, hm⟩ := hoff he
      exact .inl ⟨he, hl, hp, hw, hi, by rw [macMode, hs, hm]⟩
    | true =>
      obtain ⟨hr, hs, hm, hw, hi⟩ := hon he
      cases hl : s.flags.linkUp with
      | false =>
        obtain ⟨h1, h2, h3⟩ := hclean he hl
        have hi : s.intrMask = imrDown s.cfg := by simpa [hl] using hi
        exact .inr (.inl ⟨he, hl, hw.trans hl, hr, hi, by rw [macMode, hs, hm, hi], h1, h2, h3⟩)
      | true =>
        have hi : s.intrMask = imrFull s.cfg := by simpa [hl] using hi
        exact .inr (.inr ⟨he, hl, hw.trans hl, hr, hi, by rw [macMode, hs, hm, hi]⟩)
  · rintro (⟨he, hl, hp, hw, hi, hm⟩ | ⟨he, hl, hw, hr, hi, hm, h1, h2, h3⟩ | ⟨he, hl, hw, hr, hi, hm⟩) <;>
      obtain ⟨hs, hm⟩ := MacMode.mk.inj hm
    · simp [ModeSound, he, hl, hp, hw, hs, hi, hm]
    · simp [ModeSound, he, hl, hw, hr, hs, hi, hm, h1, h2, h3]
    · simp [ModeSound, he, hl, hw, hr, hs, hi, hm]

theorem RowDisabled.modeSound (h : RowDisabled s) : ModeSound s := modeSound_iff.2 (.inl h)

theorem RowDown.modeSound (h : RowDown s) : ModeSound s := modeSound_iff.2 (.inr (.inl h))

theorem RowUp.modeSound (h : RowUp s) : ModeSound s := modeSound_iff.2 (.inr (.inr h))

theorem RowDisabled.keeps (hs : RowDisabled s) (h : KeepsTable s t) : RowDisabled t := by
  obtain ⟨he, hl, hp, hw, hi, hm⟩ := hs
  refine ⟨?_, ?_, ?_, ?_, h.intrMask.trans hi, h.mac.trans hm⟩ <;> rw [h.flags] <;> assumption

theorem RowDown.keeps (hs : RowDown s) (h : KeepsTable s t) : RowDown t := by
  have hg : gateOpen s = false := by simp [gateOpen, hs.linkUp]
  obtain ⟨he, hl, hw, hr, hi, hm, hclean⟩ := hs
  refine ⟨?_, ?_, ?_, ?_, by rw [h.cfg]; exact h.intrMask.trans hi, by rw [h.cfg]; exact h.mac.trans hm, h.clean hg hclean⟩ <;>
    rw [h.flags] <;> assumption

theorem RowUp.keeps (hs : RowUp s) (h : KeepsTable s t) : RowUp t := by
  obtain ⟨he, hl, hw, hr, hi, hm⟩ := hs
  refine ⟨?_, ?_, ?_, ?_, by rw [h.cfg]; exact h.intrMask.trans hi, by rw [h.cfg]; exact h.mac.trans hm⟩ <;>
    rw [h.flags] <;> assumption

/-- What the engines and the other agents keep of the table, the table keeps. -/
theorem KeepsTable.modeSound (h : KeepsTable s t) (hs : ModeSound s) : ModeSound t := by
  obtain hs | hs | hs := modeSound_iff.1 hs
  · exact (hs.keeps h).modeSound
  · exact (hs.keeps h).modeSound
  · exact (hs.keeps h).modeSound

theorem ModeSound.ringsUp (hs : ModeSound s) (he : s.flags.enabled = true) : s.flags.ringsUp = true := (hs.2.1 he).1

theorem ModeSound.rowDisabled (hs : ModeSound s) (he : s.flags.enabled = false) : RowDisabled s := by
  obtain hs | hs | hs := modeSound_iff.1 hs
  · exact hs
  · simp [hs.enabled] at he
  · simp [hs.enabled] at he

theorem ModeSound.rowDown (hs : ModeSound s) (he : s.flags.enabled = true) (hl : s.flags.linkUp = false) : RowDown s := by
  obtain hs | hs | hs := modeSound_iff.1 hs
  · simp [hs.enabled] at he
  · exact hs
  · simp [hs.linkUp] at hl

/-! ### DEV.DISABLE (R264) -/

/-- `IMR` with no bit set stays so, whatever a reset of the MAC answers (log entry 9). -/
theorem macMode_resetForDisable (h : s.mac.regs.imr = 0#32) :
    macMode (resetForDisable s) = { started := false, imr := 0#32 } := by
  unfold resetForDisable
  obtain ⟨e, -, hc | ⟨d, hc⟩⟩ := hwCall_cases .macReset s
  · rw [hc]
    rfl
  · rw [hc]
    simp [macMode, haltMac, hwTimeout, h]

/-- `DEV.DISABLE` of an enabled interface ends disabled, whatever the MAC and the other agents do. -/
theorem disableSteps_row (s : State) : RowDisabled (disableSteps s) := by
  let s1 := clearModeFlags (disableInterrupts (wdtCancel s))
  let s2 := flushOutbound (macPoint s1)
  let s3 := macPoint (resetForDisable s2)
  have h12 : KeepsTable s1 s2 := (keepsTable_macPoint s1).trans (keepsTable_flushOutbound _)
  have himr : s2.mac.regs.imr = 0#32 := congrArg MacMode.imr h12.mac
  have h3 : KeepsTable (resetForDisable s2) s3 := keepsTable_macPoint _
  have hflags : s3.flags = s1.flags := h3.flags.trans ((resetForDisable_frame s2).2.2.2.2.1.trans h12.flags)
  have hmask : s3.intrMask = 0#32 := by
    rw [h3.intrMask, (resetForDisable_frame s2).2.2.2.2.2.2.2.2.1, h12.intrMask]
    rfl
  have hmac : macMode s3 = { started := false, imr := 0#32 } := h3.mac.trans (macMode_resetForDisable himr)
  change RowDisabled ((ringTeardown s3).setResult .ok)
  have hdown : (ringTeardown s3).flags = { s3.flags with ringsUp := false } := by simp [ringTeardown, dropArrays]
  refine ⟨?_, ?_, ?_, ?_, by simpa using hmask, (macMode_congr (by simp)).trans hmac⟩ <;>
    rw [State.setResult_flags, hdown, hflags] <;> rfl

/-- Enabled, or disabled already. -/
theorem devDisable_row (h : s.flags.enabled = true ∨ RowDisabled s) : RowDisabled (devDisable s) := by
  unfold devDisable
  split
  · exact disableSteps_row s
  · rename_i he
    exact (h.resolve_left he).keeps (.of_eq rfl rfl rfl rfl rfl rfl)

/-- A sequence that a timeout aborts ends disabled (R244). -/
theorem abortAdmin_row (h : s.flags.enabled = true) : RowDisabled (abortAdmin s) :=
  (devDisable_row (s := raise .cfgTimeout s) (.inl h)).keeps (.of_eq rfl rfl rfl rfl rfl rfl)

/-! ### DEV.ENABLE (R260) and DEV.RESET (R259) -/

/-- What a setup of the rings leaves of a disabled interface. -/
theorem RowDisabled.ringSetup (h : RowDisabled s) :
    RowDisabled (ringSetup s) ∧ ((ringSetup s).result = .ok → (ringSetup s).flags.ringsUp = true ∧ TxClean (ringSetup s)) := by
  obtain ⟨he, hl, hp, hw, hi, hm⟩ := h
  obtain ⟨hstopped, himr⟩ := MacMode.mk.inj hm
  have hi' : (Machine.ringSetup s).intrMask = 0#32 := by simpa using hi
  obtain ⟨s1, h1, h⟩ | ⟨t, r, q, s1, s2, h1, ⟨h2, h⟩ | ⟨h2, h⟩⟩ := ringSetup_cases s
  · cases congrArg Prod.snd h1
    have hflags : (Machine.ringSetup s).flags = s.flags := by simp [h]
    refine ⟨⟨?_, ?_, ?_, ?_, hi', by simpa [h, macMode] using hm⟩, by simp [h, setupFail]⟩ <;> simpa only [hflags]
  · cases congrArg Prod.snd h1
    cases congrArg Prod.snd h2
    have hflags : (Machine.ringSetup s).flags = { s.flags with ringsUp := true } := by simp [h, setupDone]
    have hmac : macMode (Machine.ringSetup s) = { started := false, imr := 0#32 } := by
      simp [h, setupDone, macMode, setupRegs, hstopped, himr]
    have htx : (Machine.ringSetup s).tx = emptyTx s.cfg { s.tx with ringPhys := t } := by simp [h, setupDone, placeRings]
    refine ⟨⟨?_, ?_, ?_, ?_, hi', hmac⟩, fun _ => ⟨by rw [hflags], ?_⟩⟩
    case refine_5 => exact ⟨by rw [htx]; rfl, by rw [htx]; simp [emptyTx], by rw [htx]; simp [emptyTx]⟩
    all_goals simpa only [hflags]
  · cases congrArg Prod.snd h1
    cases congrArg Prod.snd h2
    have hflags : (Machine.ringSetup s).flags = { s.flags with ringsUp := false } := by simp [h, unwind, dropArrays]
    refine ⟨⟨?_, ?_, ?_, ?_, hi', by simpa [h, macMode] using hm⟩, by simp [h, unwind, setupFail]⟩ <;> simpa only [hflags]

/-- A hardware call sets no bit of an `IMR` that has none set. -/
theorem imr_hwCalls (l : List HwCall) (h : s.mac.regs.imr = 0#32) : (hwCalls l s).2.mac.regs.imr = 0#32 := by
  have hone (c : HwCall) {u : State} (hu : u.mac.regs.imr = 0#32) : (hwCall c u).2.mac.regs.imr = 0#32 := by
    obtain ⟨e, -, hc | ⟨d, hc⟩⟩ := hwCall_cases c u <;> rw [hc]
    · cases c with
      | macReset => rfl
      | macConfigure _ | macStart _ | setAdvertise _ => exact hu
    · cases c with
      | macReset => simp [hwTimeout, hu]
      | macConfigure _ | macStart _ | setAdvertise _ => exact hu
  induction l generalizing s with
  | nil => exact h
  | cons c rest ih =>
    have h1 := hone c h
    unfold hwCalls
    rcases hc : hwCall c s with ⟨_ | _, s1⟩ <;> rw [hc] at h1
    · exact h1
    · exact ih h1

/-- Hardware calls of which the last one starts the MAC leave it started. -/
theorem started_hwCalls {l : List HwCall} {p : Option Link} (h : (hwCalls (l ++ [.macStart p]) s).1 = true) :
    (hwCalls (l ++ [.macStart p]) s).2.mac.started = true := by
  induction l generalizing s with
  | nil =>
    rw [List.nil_append, hwCalls] at h ⊢
    obtain ⟨e, -, hc | ⟨d, hc⟩⟩ := hwCall_cases (.macStart p) s
    · rw [hc]
      rfl
    · rw [hc] at h
      cases h
  | cons c rest ih =>
    rw [List.cons_append, hwCalls] at h ⊢
    rcases hc : hwCall c s with ⟨_ | _, s1⟩ <;> rw [hc] at h
    · cases h
    · exact ih h

/-- `DEV.ENABLE` of a disabled interface ends disabled with a failure, or in mode DOWN. -/
theorem devEnable_row (h : RowDisabled s) :
    RowDisabled (devEnable s) ∧ (devEnable s).result ≠ .ok ∨ RowDown (devEnable s) := by
  have hmac (r : Result) (hr : r ≠ .ok) {u : State} (hu : RowDisabled u) :
      RowDisabled (u.setResult r) ∧ (u.setResult r).result ≠ .ok := ⟨hu.keeps (.of_eq rfl rfl rfl rfl rfl rfl), hr⟩
  unfold devEnable
  split
  · exact .inl (hmac .fail nofun h)
  obtain ⟨hrow, hok⟩ := h.ringSetup
  generalize ringSetup s = u at hrow hok
  dsimp only
  split
  case isFalse hfail => exact .inl ⟨hrow, hfail⟩
  case isTrue hres =>
  obtain ⟨hup, hclean⟩ := hok hres
  have himr : (hwCalls (enableCalls u) u).2.mac.regs.imr = 0#32 := imr_hwCalls _ (congrArg MacMode.imr hrow.mac)
  unfold enableMac
  rcases hc : hwCalls (enableCalls u) u with ⟨_ | _, u1⟩
  · cases congrArg Prod.snd hc
    obtain ⟨he, hl, hp, hw, hi, -⟩ := hrow
    have hflags : (ringTeardown (haltMac (raise .cfgTimeout (hwCalls (enableCalls u) u).2))).flags =
        { u.flags with ringsUp := false } := by simp [ringTeardown, dropArrays]
    refine .inl (hmac .fail nofun ⟨?_, ?_, ?_, ?_, by simpa using hi, by simpa [macMode, haltMac] using himr⟩) <;>
      simpa only [hflags]
  · have hstarted : (hwCalls (enableCalls u) u).2.mac.started = true :=
      started_hwCalls (l := [.macReset, .macConfigure (macConf u), .setAdvertise u.medium]) (congrArg Prod.fst hc)
    cases congrArg Prod.snd hc
    have hflags : (enableDone (hwCalls (enableCalls u) u).2).flags =
        { u.flags with linkUp := false, wdtArmed := false, enabled := true } := by simp [enableDone]
    refine .inr ⟨by rw [hflags], by rw [hflags], by rw [hflags], by rw [hflags]; exact hup, ?_, ?_,
      hclean.congr (by simp) (by simp)⟩
    · simp [enableDone, writeIntrMask]
    · simpa [enableDone, writeIntrMask, macMode, offerAll, regWrite, regStore] using hstarted

theorem devEnable_modeSound (h : ModeSound s) : ModeSound (devEnable s) := by
  cases he : s.flags.enabled with
  | false => exact (devEnable_row (h.rowDisabled he)).elim (fun hd => hd.1.modeSound) RowDown.modeSound
  | true =>
    rw [devEnable, if_pos (by simp [he])]
    exact KeepsTable.modeSound (.of_eq rfl rfl rfl rfl rfl rfl) h

/-- `DEV.RESET` ends disabled or in mode DOWN. -/
theorem devReset_row (h : s.flags.enabled = true ∨ RowDisabled s) : RowDisabled (devReset s) ∨ RowDown (devReset s) := by
  have hrestart := devEnable_row ((devDisable_row h).keeps (keepsTable_macPoint _))
  change RowDisabled (devRestart s) ∧ (devRestart s).result ≠ .ok ∨ RowDown (devRestart s) at hrestart
  simp only [devReset]
  obtain ⟨hrow, hfail⟩ | hrow := hrestart
  · rw [if_neg hfail]
    exact .inl hrow
  · split
    · obtain ⟨he, hl, hw, hr, hi, hm, h1, h2, h3⟩ := hrow
      exact .inr ⟨he, hl, hw, hr, hi, hm, h1, h2, h3⟩
    · exact .inr hrow

theorem devReset_modeSound (h : s.flags.enabled = true) : ModeSound (devReset s) :=
  (devReset_row (.inl h)).elim RowDisabled.modeSound RowDown.modeSound

/-! ### The link machine (R256 to R258) -/

/-- `LINK.UP` in mode DOWN ends up, or aborted and disabled. -/
theorem linkUp_row (p : Link) (h : RowDown s) : RowDisabled (linkUp p s) ∨ RowUp (linkUp p s) := by
  unfold linkUp
  obtain ⟨e, -, hc | ⟨d, hc⟩⟩ := hwCall_cases (.macStart (some p)) (s.setLink p)
  · rw [hc]
    refine .inr ?_
    dsimp only [beforeCall]
    generalize hu : State.setFlags _ _ = u
    have hkeeps := keepsTable_macPoint u
    have hflags : u.flags = { s.flags with linkUp := true } := by subst hu; simp
    have hcfg : u.cfg = s.cfg := by subst hu; simp
    have hdone : (wdtArm (signalResumable (macPoint u))).flags = { u.flags with wdtArmed := true } := by simp [wdtArm]
    refine ⟨?_, ?_, ?_, ?_, ?_, ?_⟩
    · simpa [hdone, hflags] using h.enabled
    · simp [hdone, hflags]
    · simp [hdone]
    · simpa [hdone, hflags] using h.ringsUp
    · have hmask : u.intrMask = imrFull s.cfg := by subst hu; simp [writeIntrMask]
      simp [hmask, hcfg]
    · have hmac : macMode u = { started := true, imr := imrFull s.cfg } := by
        subst hu
        simp [macMode, writeIntrMask, regWrite, regStore, hwEffect]
      refine (macMode_congr (s := macPoint u) (by simp)).trans (hkeeps.mac.trans ?_)
      simp [hmac, hcfg]
  · rw [hc]
    refine .inl (abortAdmin_row ?_)
    simpa [beforeCall] using h.enabled

/-- `LINK.DOWN` of an enabled interface ends in mode DOWN, or aborted and disabled. -/
theorem linkDown_row (he : s.flags.enabled = true) (hr : s.flags.ringsUp = true) :
    RowDisabled (linkDown s) ∨ RowDown (linkDown s) := by
  have hstop : (linkDownStop s).flags = { s.flags with linkUp := false, wdtArmed := false } := by
    simp [linkDownStop, wdtCancel]
  unfold linkDown
  rcases hc : hwCall .macReset (linkDownStop s) with ⟨_ | _, s1⟩ <;> cases congrArg Prod.snd hc
  · exact .inl (abortAdmin_row (by simp [hstop, he]))
  dsimp only
  generalize hu : linkDownClear (hwCall .macReset (linkDownStop s)).2 = u
  have hflags : u.flags = { s.flags with linkUp := false, wdtArmed := false } := by simp [← hu, hstop]
  have hmask : u.intrMask = imrDown u.cfg := by simp [← hu, linkDownClear, writeIntrMask]
  have himr : u.mac.regs.imr = imrDown u.cfg := by simp [← hu, linkDownClear, writeIntrMask, regWrite, regStore]
  have hclean : TxClean u := by
    have htx : u.tx = emptyTx u.cfg (macPoint (hwCall .macReset (linkDownStop s)).2).tx := by simp [← hu, linkDownClear]
    exact ⟨by rw [htx]; rfl, by rw [htx]; rfl, by rw [htx]; rfl⟩
  rcases hk : hwCalls (linkDownCalls u) u with ⟨_ | _, v⟩
  · cases congrArg Prod.snd hk
    exact .inl (abortAdmin_row (by simp [hflags, he]))
  · have hstarted : (hwCalls (linkDownCalls u) u).2.mac.started = true :=
      started_hwCalls (l := [.macConfigure (macConf u)]) (congrArg Prod.fst hk)
    have hkept : (hwCalls (linkDownCalls u) u).2.mac.regs.imr = u.mac.regs.imr := by
      have hregs (c : HwCall) (hne : c ≠ .macReset) (w : State) : (hwCall c w).2.mac.regs = w.mac.regs := by
        cases c with
        | macReset => exact absurd rfl hne
        | macConfigure _ | macStart _ | setAdvertise _ =>
          obtain ⟨e, -, hw | ⟨d, hw⟩⟩ := hwCall_cases _ w <;> rw [hw] <;> rfl
      rw [linkDownCalls, hwCalls]
      rcases h1 : hwCall (.macConfigure (macConf u)) u with ⟨_ | _, w⟩ <;> cases congrArg Prod.snd h1
      · simp [hregs]
      · dsimp only [hwCalls]
        rcases h2 : hwCall (.macStart none) (hwCall (.macConfigure (macConf u)) u).2 with ⟨_ | _, x⟩ <;>
          cases congrArg Prod.snd h2 <;> simp [hregs]
    cases congrArg Prod.snd hk
    refine .inr ⟨?_, ?_, ?_, ?_, ?_, ?_, TxClean.congr (s := u) (by simp) (by simp) hclean⟩
    · simp [hflags, he]
    · simp [hflags]
    · simp [hflags]
    · simp [hflags, hr]
    · simpa using hmask
    · refine (macMode_congr (s := offerAll (hwCalls (linkDownCalls u) u).2) (by simp)).trans ?_
      rw [macMode_offerAll, macMode, hstarted, hkept, himr]
      simp

theorem linkUp_modeSound (p : Link) (h : ModeSound s) (he : s.flags.enabled = true) (hl : s.flags.linkUp = false) :
    ModeSound (linkUp p s) :=
  (linkUp_row p (h.rowDown he hl)).elim RowDisabled.modeSound RowUp.modeSound

theorem linkDown_modeSound (h : ModeSound s) (he : s.flags.enabled = true) : ModeSound (linkDown s) :=
  (linkDown_row he (h.ringsUp he)).elim RowDisabled.modeSound RowDown.modeSound

end Sys2Proof.Machine
end

section
/-! SUPPORT. Every operation, and every step, keeps the mode table (60_exceptions.md R267, R269; O55). -/

namespace Sys2Proof.Machine

variable {s t : State} {i : Instr}

/-! ### The engines -/

/-- The operations of the engines: transmit, reclaim, receive, the pool and the poll callback. -/
def engineOp : Instr → Bool
  | .txqPlain | .txqTso4 | .txqTso6 | .txPull | .txReclaim | .rxDrain _ | .poolRefill | .pollService _ => true
  | .ringSetup | .ringTeardown | .txClear | .rxReset | .irqDispatch | .pollMode _ | .wdtTick | .linkUp | .linkDown
  | .devReset | .devEnable | .devDisable | .mediumSelect _ => false

theorem keepsTable_exec (hi : engineOp i = true) (h : exec i s = .next t) : KeepsTable s t := by
  cases i with
  | txqPlain => exact keepsTable_txq (m := .none) h
  | txqTso4 => exact keepsTable_txq (m := .tso4) h
  | txqTso6 => exact keepsTable_txq (m := .tso6) h
  | txPull => exact keepsTable_execTxPull h
  | txReclaim => exact keepsTable_reclaimIfEnabled h
  | rxDrain b => exact keepsTable_drainIfEnabled h
  | poolRefill =>
    cases h
    exact keepsTable_refill s .returned
  | pollService b => exact keepsTable_pollService h
  | ringSetup | ringTeardown | txClear | rxReset | irqDispatch | pollMode _ | wdtTick | linkUp | linkDown
  | devReset | devEnable | devDisable | mediumSelect _ => cases hi

/-- The result of an operation is no part of the table. -/
theorem keepsTable_setResult (s : State) (r : Result) : KeepsTable s (s.setResult r) := .of_eq rfl rfl rfl rfl rfl rfl

theorem keepsTable_refuse (s : State) : KeepsTable s (refuse s) := .of_eq rfl rfl rfl rfl rfl rfl

theorem ModeSound.setResult (h : ModeSound s) (r : Result) : ModeSound (s.setResult r) := (keepsTable_setResult s r).modeSound h

theorem ModeSound.refuse (h : ModeSound s) : ModeSound (Machine.refuse s) := (keepsTable_refuse s).modeSound h

/-! ### The ring operations requested on their own (40_rings.md R145 to R148) -/

/-- The rings of a disabled interface may come and go (log entry 13). -/
theorem RowDisabled.rings {b : Bool} (h : RowDisabled s) (hf : t.flags = { s.flags with ringsUp := b })
    (hi : t.intrMask = s.intrMask) (hm : t.mac = s.mac) : RowDisabled t := by
  obtain ⟨he, hl, hp, hw, hi', hm'⟩ := h
  refine ⟨?_, ?_, ?_, ?_, hi.trans hi', (macMode_congr hm).trans hm'⟩ <;> rw [hf] <;> assumption

/-- A stopped MAC is a disabled interface's. -/
theorem ModeSound.rowDisabled_of_stopped (h : ModeSound s) (hs : ¬s.mac.started = true) : RowDisabled s := by
  refine h.rowDisabled ?_
  by_contra he
  exact hs (h.2.1 (by simpa using he)).2.1

theorem execRingSetup_modeSound (hs : ModeSound s) (h : exec .ringSetup s = .next t) : ModeSound t := by
  cases h
  split
  · exact hs.refuse
  · rename_i hoff
    exact (hs.rowDisabled (by simp at hoff; exact hoff.1)).ringSetup.1.modeSound

theorem execRingTeardown_modeSound (hs : ModeSound s) (h : exec .ringTeardown s = .next t) : ModeSound t := by
  change execRingTeardown s = _ at h
  unfold execRingTeardown at h
  split at h
  · cases h
    exact hs.refuse
  split at h <;> cases h
  rename_i hstop
  exact RowDisabled.modeSound ((hs.rowDisabled_of_stopped hstop).rings (b := false) (by simp [ringTeardown, dropArrays])
    (by simp) (by simp))

theorem execTxClear_modeSound (hs : ModeSound s) (h : exec .txClear s = .next t) : ModeSound t := by
  change execTxClear s = _ at h
  unfold execTxClear at h
  split at h
  · cases h
    exact hs.refuse
  split at h <;> cases h
  rename_i hstop
  exact RowDisabled.modeSound ((hs.rowDisabled_of_stopped hstop).rings (b := s.flags.ringsUp) (by simp) (by simp) (by simp))

theorem execRxReset_modeSound (hs : ModeSound s) (h : exec .rxReset s = .next t) : ModeSound t := by
  change execRxReset s = _ at h
  unfold execRxReset at h
  split at h
  · cases h
    exact hs.refuse
  split at h <;> cases h
  rename_i hstop
  have hrow : RowDisabled (rxResetRings s) :=
    (hs.rowDisabled_of_stopped hstop).rings (b := s.flags.ringsUp) (by simp) (by simp) (by simp)
  exact (hrow.keeps (.of_eq (t := (offerAll (rxResetRings s)).setResult .returned) (by simp) (by simp) (by simp) (by simp)
    (by simp) (by simp))).modeSound

/-! ### Control (60_exceptions.md R249 to R262) -/

theorem macPoint_modeSound (h : ModeSound s) : ModeSound (macPoint s) := (keepsTable_macPoint s).modeSound h

theorem linkEval_modeSound (hs : ModeSound s) (he : s.flags.enabled = true) (h : linkEval s = .next t) : ModeSound t := by
  have hread : KeepsTable s (hwReadLink s).2 :=
    .of_eq (by simp) (by simp) (by simp) (macMode_congr (by simp)) (by simp) (by simp)
  have hs1 := hread.modeSound hs
  rw [← hread.flags] at he
  revert h
  rw [linkEval]
  generalize (hwReadLink s).2 = u at hs1 he
  intro h
  unfold linkEvalOn at h
  split at h
  · cases h
    split
    · exact linkDown_modeSound hs1 he
    · exact hs1
  · split at h
    case isFalse => cases h
    case isTrue =>
    generalize hv : (if u.flags.linkUp && _ then macPoint (linkDown u) else u) = v at h
    have hdown : ModeSound v := by
      subst hv
      split
      · exact macPoint_modeSound (linkDown_modeSound hs1 he)
      · exact hs1
    cases h
    split
    · rename_i hup
      obtain ⟨hl, he'⟩ : v.flags.linkUp = false ∧ v.flags.enabled = true := by simpa using hup
      exact linkUp_modeSound _ hdown he' hl
    · exact hdown

theorem advertise_modeSound (m : BitVec 5) (h : ModeSound s) : ModeSound (advertise m s) :=
  (keepsTable_advertise m s).modeSound h

theorem mediumSelect_modeSound (m : BitVec 5) (h : ModeSound s) : ModeSound (mediumSelect m s) := by
  have hset : ModeSound (s.setMedium m) := KeepsTable.modeSound (.of_eq rfl rfl rfl rfl rfl rfl) h
  unfold mediumSelect
  split
  · dsimp only
    split
    · rename_i he
      unfold reselect
      split
      · have hdown : ModeSound (linkDown (s.setMedium m)) := linkDown_modeSound hset he
        dsimp only
        split
        · exact advertise_modeSound m hdown
        · exact hdown
      · exact advertise_modeSound m (KeepsTable.modeSound (.of_eq rfl rfl rfl rfl rfl rfl) hset)
    · exact hset.setResult .ok
  · exact KeepsTable.modeSound (.of_eq rfl rfl rfl rfl rfl rfl) h

theorem wdtTick_modeSound (h : ModeSound s) : ModeSound (wdtTick s) := by
  unfold wdtTick
  split
  · rename_i ha
    have he : s.flags.enabled = true := by simp at ha; exact ha.1
    split
    · unfold stalledTick
      dsimp only
      split
      · exact devReset_modeSound he
      · exact KeepsTable.modeSound (.of_eq rfl rfl rfl rfl rfl rfl) h
    · exact KeepsTable.modeSound (.of_eq rfl rfl rfl rfl rfl rfl) h
  · exact h

theorem keepsTable_dispatchEntry (s : State) : KeepsTable s (dispatchEntry s) :=
  (keepsTable_macPoint s).trans (.of_eq (by simp [dispatchEntry]) (by simp [dispatchEntry]) (by simp [dispatchEntry])
    (by simp [dispatchEntry]) (by simp [dispatchEntry]) (by simp [dispatchEntry]))

theorem keepsTable_dispatchExit (h : dispatchExit s = .next t) : KeepsTable s t := by
  cases h
  exact .of_eq (by simp) (by simp) (by simp) (by simp) (by simp) (by simp)

theorem dispatch_modeSound (hs : ModeSound s) (he : s.flags.enabled = true) (h : dispatch s = .next t) : ModeSound t := by
  have hentry := keepsTable_dispatchEntry s
  unfold dispatch at h
  dsimp only at h
  split at h
  · cases h
    refine ModeSound.setResult (devReset_modeSound ?_) .returned
    simpa [log] using congrArg Flags.enabled hentry.flags |>.trans he
  · obtain ⟨u, hu, ht⟩ := andThen_eq_next.1 h
    obtain ⟨v, hv, ht⟩ := andThen_eq_next.1 ht
    have hserved : KeepsTable s u := hentry.trans (keepsTable_serveEngines hu)
    refine (keepsTable_dispatchExit ht).modeSound ?_
    unfold serveLink at hv
    split at hv
    · have hpoint := hserved.trans (keepsTable_macPoint u)
      exact linkEval_modeSound (hpoint.modeSound hs) (by rw [hpoint.flags]; exact he) hv
    · cases hv
      exact hserved.modeSound hs

theorem setPollMode_modeSound (on : Bool) (h : ModeSound s) : ModeSound (setPollMode on s) := by
  unfold setPollMode
  split
  · rename_i he
    exact ⟨fun hoff => by simp [he] at hoff, h.2.1, h.2.2⟩
  · exact h.refuse

/-! ### Every operation and every step -/

theorem exec_modeSound (hs : ModeSound s) (h : exec i s = .next t) : ModeSound t := by
  cases i with
  | txqPlain | txqTso4 | txqTso6 | txPull | txReclaim | rxDrain _ | poolRefill | pollService _ =>
    exact (keepsTable_exec rfl h).modeSound hs
  | ringSetup => exact execRingSetup_modeSound hs h
  | ringTeardown => exact execRingTeardown_modeSound hs h
  | txClear => exact execTxClear_modeSound hs h
  | rxReset => exact execRxReset_modeSound hs h
  | irqDispatch =>
    change execIrqDispatch s = _ at h
    unfold execIrqDispatch at h
    split at h
    · rename_i he
      exact dispatch_modeSound hs he h
    · cases h
      exact hs.setResult .returned
  | pollMode on =>
    cases h
    exact setPollMode_modeSound on hs
  | wdtTick =>
    cases h
    exact (wdtTick_modeSound hs).setResult .returned
  | linkUp =>
    change execLinkUp s = _ at h
    unfold execLinkUp at h
    split at h
    · cases h
      exact hs.refuse
    · rename_i hmode
      obtain ⟨he, hl⟩ : s.flags.enabled = true ∧ s.flags.linkUp = false := by simpa using hmode
      split at h <;> cases h
      exact linkUp_modeSound _ hs he hl
  | linkDown =>
    cases h
    split
    · rename_i he
      exact linkDown_modeSound hs he
    · exact hs.refuse
  | devReset =>
    cases h
    split
    · rename_i he
      exact devReset_modeSound he
    · exact hs.refuse
  | devEnable =>
    cases h
    exact devEnable_modeSound hs
  | devDisable =>
    cases h
    unfold devDisable
    split
    · exact (disableSteps_row s).modeSound
    · exact hs.setResult .ok
  | mediumSelect m =>
    cases h
    exact mediumSelect_modeSound m hs

theorem keepsTable_refuseWord (e : DecodeError) (s : State) : KeepsTable s (refuseWord e s) := by
  cases e with
  | mediumReserved => exact (keepsTable_raise _ s).trans (keepsTable_setResult _ _)
  | unknownOpcode | operandNotZero | pollModeOperand => exact keepsTable_refuse s

/-- An event that requests no operation keeps the table. -/
theorem keepsTable_runEvent {e : Event} (he : ∀ r, e ≠ .op r) (h : runEvent e s = .next t) : KeepsTable s t := by
  cases e with
  | op r => exact absurd rfl (he r)
  | mac m =>
    cases h
    exact keepsTable_macStep m s
  | pull => exact keepsTable_pullTurn h
  | offer f =>
    cases h
    exact keepsTable_offerFrame f s
  | hostWrite a l =>
    cases h
    exact keepsTable_hostWrite a l s
  | bufReturn r =>
    cases h
    exact keepsTable_bufReturn r s
  | answer _ | allocFail _ | ceaseless _ | slowBus _ =>
    cases h
    exact .of_eq rfl rfl rfl rfl rfl rfl

theorem runEvent_modeSound {e : Event} (hs : ModeSound s) (h : runEvent e s = .next t) : ModeSound t := by
  by_cases he : ∃ r, e = .op r
  · obtain ⟨r, rfl⟩ := he
    have hargs : ModeSound (s.setArgs r.frame r.link) := KeepsTable.modeSound (.of_eq rfl rfl rfl rfl rfl rfl) hs
    obtain ⟨i, -, hi⟩ | ⟨e, -, rfl⟩ := runRequest_cases h
    · exact exec_modeSound hargs hi
    · exact (keepsTable_refuseWord e _).modeSound hargs
  · exact (keepsTable_runEvent (fun r hr => he ⟨r, hr⟩) h).modeSound hs

end Sys2Proof.Machine

open Sys2Proof Sys2Proof.Machine

/-- Settles O55: each row of the table through each kind of step; the engines and the other agents keep the entries of the row,
and an administrative operation ends in one of the three rows. -/
theorem stepKeepsTheModeTable : Obligations.StepKeepsTheModeTable := by
  intro s t hs h
  obtain ⟨-, ⟨e, rest, -, he⟩ | ⟨-, rfl | hp | ⟨i, -, hi⟩⟩⟩ := step_cases h
  · exact runEvent_modeSound (s := s.setPending rest) (KeepsTable.modeSound (.of_eq rfl rfl rfl rfl rfl rfl) hs) he
  · exact hs
  · exact (keepsTable_finishPull hp).modeSound hs
  · exact exec_modeSound hs hi
end

section
/-! SUPPORT. With the link down no operation rings the transmit doorbell (60_exceptions.md R258; O60). -/

namespace Sys2Proof.Machine

variable {k s t : State} {i : Instr}

/-! ### The relation -/

/-- Since `k` the link stayed down and the doorbell was not written. -/
structure Quiet (k s : State) : Prop where
  down : s.flags.linkUp = false
  doorbells : doorbells s = doorbells k

theorem Quiet.refl (h : s.flags.linkUp = false) : Quiet s s := ⟨h, rfl⟩

theorem Quiet.to (h : Quiet k s) (hl : t.flags.linkUp = false) (hd : Machine.doorbells t = Machine.doorbells s) : Quiet k t :=
  ⟨hl, hd.trans h.doorbells⟩

theorem Quiet.keeps (h : Quiet k s) (ht : KeepsTable s t) : Quiet k t :=
  h.to (by rw [ht.flags]; exact h.down) (ht.doorbells (by simp [gateOpen, h.down]))

theorem Quiet.setResult (h : Quiet k s) (r : Result) : Quiet k (s.setResult r) := h.keeps (keepsTable_setResult s r)

/-! ### Administrative operations -/

theorem keepsTable_log (x : LogText) (s : State) : KeepsTable s (log x s) := .of_eq rfl rfl rfl rfl (by simp) rfl

theorem Quiet.resetForDisable (h : Quiet k s) : Quiet k (resetForDisable s) := h.to (by simpa using h.down) (by simp)

theorem Quiet.ringTeardown (h : Quiet k s) : Quiet k (ringTeardown s) :=
  h.to (by simpa [Machine.ringTeardown, dropArrays] using h.down) (by simp)

theorem Quiet.devDisable (h : Quiet k s) : Quiet k (devDisable s) := by
  unfold Machine.devDisable
  split
  · have hoff : Quiet k (clearModeFlags (disableInterrupts (wdtCancel s))) := h.to rfl (by simp)
    have hflushed := (hoff.keeps (keepsTable_macPoint _)).keeps (keepsTable_flushOutbound _)
    exact (hflushed.resetForDisable.keeps (keepsTable_macPoint _)).ringTeardown.setResult .ok
  · exact h.setResult .ok

theorem Quiet.abortAdmin (h : Quiet k s) : Quiet k (abortAdmin s) :=
  (h.keeps (keepsTable_raise .cfgTimeout s)).devDisable.setResult .fail

theorem Quiet.ringSetup (h : Quiet k s) : Quiet k (ringSetup s) := by
  have hl : (Machine.ringSetup s).flags.linkUp = s.flags.linkUp := by
    obtain ⟨s1, h1, hs⟩ | ⟨t, r, q, s1, s2, h1, ⟨h2, hs⟩ | ⟨h2, hs⟩⟩ := ringSetup_cases s <;> cases congrArg Prod.snd h1
    · simp [hs, setupFail]
    · cases congrArg Prod.snd h2
      simp [hs, setupDone]
    · cases congrArg Prod.snd h2
      simp [hs, unwind, setupFail, dropArrays]
  exact h.to (hl.trans h.down) (by simp)

theorem Quiet.devEnable (h : Quiet k s) : Quiet k (devEnable s) := by
  unfold Machine.devEnable
  split
  · exact h.setResult .fail
  have hrings := h.ringSetup
  generalize Machine.ringSetup s = u at hrings
  dsimp only
  split
  · unfold enableMac
    rcases hc : hwCalls (enableCalls u) u with ⟨_ | _, u1⟩ <;> cases congrArg Prod.snd hc
    · have hcalls := hrings.to (t := haltMac (raise .cfgTimeout (hwCalls (enableCalls u) u).2))
        (by simpa [haltMac] using hrings.down) (by simp)
      exact hcalls.ringTeardown.setResult .fail
    · exact hrings.to (by simp [enableDone]) (by simp [enableDone])
  · exact hrings

theorem Quiet.devReset (h : Quiet k s) : Quiet k (devReset s) := by
  have hrestart : Quiet k (devRestart s) := (h.devDisable.keeps (keepsTable_macPoint _)).devEnable
  simp only [Machine.devReset]
  split
  · exact hrestart.to hrestart.down rfl
  · exact hrestart

theorem Quiet.linkDownStop (h : Quiet k s) : Quiet k (linkDownStop s) := by
  have hoff : Quiet k (s.setFlags { s.flags with linkUp := false }) := h.to rfl rfl
  have hflushed := (hoff.keeps (keepsTable_macPoint _)).keeps (keepsTable_flushOutbound _)
  exact hflushed.to hflushed.down rfl

theorem Quiet.hwCalls (h : Quiet k s) (l : List HwCall) : Quiet k (hwCalls l s).2 := h.to (by simpa using h.down) (by simp)

theorem Quiet.linkDown (h : Quiet k s) : Quiet k (Machine.linkDown s) := by
  have hstop := h.linkDownStop
  unfold Machine.linkDown
  rcases hc : hwCall .macReset (Machine.linkDownStop s) with ⟨_ | _, s1⟩ <;> cases congrArg Prod.snd hc <;> dsimp only
  · exact (hstop.to (t := (hwCall .macReset _).2) (by simpa using hstop.down) (by simp)).abortAdmin
  have hreset := hstop.to (t := (hwCall .macReset _).2) (by simpa using hstop.down) (by simp)
  have hclear : Quiet k (linkDownClear (hwCall .macReset (Machine.linkDownStop s)).2) := by
    have hpoint := hreset.keeps (keepsTable_macPoint _)
    exact hpoint.to (by simpa using hreset.down) (by simp [linkDownClear])
  generalize linkDownClear (hwCall .macReset (Machine.linkDownStop s)).2 = u at hclear
  have hcalls := hclear.hwCalls (linkDownCalls u)
  rcases hc : Machine.hwCalls (linkDownCalls u) u with ⟨_ | _, v⟩ <;> rw [hc] at hcalls <;> dsimp only
  · exact hcalls.abortAdmin
  · exact hcalls.to (by simpa using hcalls.down) (by simp)

theorem Quiet.advertise (h : Quiet k s) (m : BitVec 5) : Quiet k (advertise m s) := h.keeps (keepsTable_advertise m s)

theorem Quiet.mediumSelect (h : Quiet k s) (m : BitVec 5) : Quiet k (mediumSelect m s) := by
  have hset : Quiet k (s.setMedium m) := h.to h.down rfl
  have hl : ¬(s.setMedium m).flags.linkUp = true := by simp [h.down]
  simp only [Machine.mediumSelect, reselect, if_neg hl]
  split
  · split
    · exact Quiet.advertise (hset.to (t := (s.setMedium m).setLink Link.down) h.down rfl) m
    · exact hset.setResult .ok
  · exact (h.keeps (keepsTable_raise .cfgInvalidMedium s)).setResult .fail

theorem Quiet.wdtTick (h : Quiet k s) : Quiet k (wdtTick s) := by
  have hset (v : Watchdog) : Quiet k (s.setWdt v) := h.to h.down rfl
  simp only [Machine.wdtTick, stalledTick]
  split
  · split
    · split
      · exact (((hset _).keeps (keepsTable_raise .hwDeadlock _)).keeps (keepsTable_log .transmitDeadlock _)).devReset
      · exact hset _
    · exact hset _
  · exact h

/-! ### The link brought up -/

theorem noPull_of_writes {W : List Entry} (h : Writes W (ledger s) (ledger t)) (hp : NoPull s) : NoPull t :=
  fun l hl => hp l (h.during l hl)

/-- `LINK.UP` opens the gate; with no PULLER inside it nothing rings the doorbell. -/
theorem doorbells_linkUp (p : Link) (hl : s.flags.linkUp = false) (hp : NoPull s) : doorbells (linkUp p s) = doorbells s := by
  have hcall : doorbells (hwCall (.macStart (some p)) (s.setLink p)).2 = doorbells s := by simp
  unfold linkUp
  rcases hc : hwCall (.macStart (some p)) (s.setLink p) with ⟨_ | _, s1⟩ <;> cases congrArg Prod.snd hc <;> dsimp only
  · have hquiet : Quiet s (hwCall (.macStart (some p)) (s.setLink p)).2 := ⟨by simpa using hl, hcall⟩
    exact hquiet.abortAdmin.doorbells
  · generalize hu : State.setFlags _ _ = u
    have hpull : NoPull u := by
      refine noPull_of_writes (W := []) ?_ hp
      rw [← hu]
      simpa using Writes.refl [] (ledger s)
    have hdone : doorbells u = doorbells s := by rw [← hu]; simp
    simpa [doorbells_macPoint hpull] using hdone

theorem doorbells_linkEval (hl : s.flags.linkUp = false) (hp : NoPull s) (h : linkEval s = .next t) :
    doorbells t = doorbells s := by
  have hread : doorbells (hwReadLink s).2 = doorbells s := by simp
  have hl' : (hwReadLink s).2.flags.linkUp = false := by simpa using hl
  have hpull : NoPull (hwReadLink s).2 := noPull_of_writes (W := []) (by simpa using Writes.refl [] (ledger s)) hp
  rw [← hread]
  change linkEvalOn (hwReadLink s).1 (hwReadLink s).2 = _ at h
  generalize (hwReadLink s).2 = u at h hl' hpull
  simp only [linkEvalOn, hl', Bool.false_and, Bool.false_eq_true, if_false] at h
  split at h
  · cases h
    rfl
  split at h <;> cases h
  simp only [Bool.not_false, Bool.true_and]
  split
  · exact doorbells_linkUp _ hl' hpull
  · rfl

/-! ### A dispatch (60_exceptions.md R249) -/

theorem serveEngines_writes {w : Word} (h : serveEngines w s = .next t) :
    Writes (.doneCount :: rxStats) (ledger s) (ledger t) := by
  have hs := Writes.refl (.doneCount :: rxStats) (ledger s)
  unfold serveEngines at h
  split at h
  · cases h
    exact hs
  obtain ⟨u, hu, h⟩ := andThen_eq_next.1 h
  have htx : Writes (.doneCount :: rxStats) (ledger s) (ledger u) := by
    unfold serveTx at hu
    split at hu
    · exact hs.macPoint.reclaimIfEnabled List.mem_cons_self hu
    · cases hu
      exact hs
  unfold serveRx at h
  split at h
  · exact htx.rxService (List.subset_cons_self ..) h
  · cases h
    exact htx

theorem doorbells_dispatch (hl : s.flags.linkUp = false) (hp : NoPull s) (h : dispatch s = .next t) :
    doorbells t = doorbells s := by
  have hentry : Quiet s (dispatchEntry s) := (Quiet.refl hl).keeps (keepsTable_dispatchEntry s)
  simp only [dispatch] at h
  split at h
  · cases h
    exact ((hentry.keeps (keepsTable_raise .hwFatal _)).keeps (keepsTable_log .fatalInterrupt _)).devReset.doorbells
  · obtain ⟨u, hu, h⟩ := andThen_eq_next.1 h
    obtain ⟨v, hv, ht⟩ := andThen_eq_next.1 h
    have hserved : Quiet s u := hentry.keeps (keepsTable_serveEngines hu)
    have hpull : NoPull u := by
      have hwrites : Writes (.doneCount :: rxStats) (ledger s) (ledger (logAlert (regRead .isr s) (dispatchEntry s))) := by
        simpa [dispatchEntry] using (Writes.refl _ (ledger s)).macPoint
      exact noPull_of_writes (hwrites.trans (serveEngines_writes hu) (List.Subset.refl _)) hp
    have hlink : doorbells v = doorbells s := by
      unfold serveLink at hv
      split at hv
      · have hpoint := hserved.keeps (keepsTable_macPoint u)
        exact (doorbells_linkEval hpoint.down (noPull_of_writes (macPoint_writes u) hpull) hv).trans hpoint.doorbells
      · cases hv
        exact hserved.doorbells
    cases ht
    simpa using hlink

/-! ### Every operation -/

theorem doorbells_exec (hp : i = .linkUp ∨ i = .irqDispatch → NoPull s) (hl : s.flags.linkUp = false) (h : exec i s = .next t) :
    doorbells t = doorbells s := by
  have hs := Quiet.refl hl
  cases i with
  | txqPlain | txqTso4 | txqTso6 | txPull | txReclaim | rxDrain _ | poolRefill | pollService _ =>
    exact (hs.keeps (keepsTable_exec rfl h)).doorbells
  | ringSetup =>
    cases h
    split <;> simp
  | ringTeardown =>
    change execRingTeardown s = _ at h
    unfold execRingTeardown at h
    split at h
    · cases h
      rfl
    split at h <;> cases h
    simp
  | txClear =>
    change execTxClear s = _ at h
    unfold execTxClear at h
    split at h
    · cases h
      rfl
    split at h <;> cases h
    simp
  | rxReset =>
    change execRxReset s = _ at h
    unfold execRxReset at h
    split at h
    · cases h
      rfl
    split at h <;> cases h
    simp
  | irqDispatch =>
    change execIrqDispatch s = _ at h
    unfold execIrqDispatch at h
    split at h
    · exact doorbells_dispatch hl (hp (.inr rfl)) h
    · cases h
      rfl
  | pollMode on =>
    cases h
    unfold setPollMode
    split <;> rfl
  | wdtTick =>
    cases h
    exact hs.wdtTick.doorbells
  | linkUp =>
    change execLinkUp s = _ at h
    unfold execLinkUp at h
    split at h
    · cases h
      rfl
    split at h <;> cases h
    exact doorbells_linkUp _ hl (hp (.inl rfl))
  | linkDown =>
    cases h
    split
    · exact hs.linkDown.doorbells
    · rfl
  | devReset =>
    cases h
    split
    · exact hs.devReset.doorbells
    · rfl
  | devEnable =>
    cases h
    exact hs.devEnable.doorbells
  | devDisable =>
    cases h
    exact hs.devDisable.doorbells
  | mediumSelect m =>
    cases h
    exact (hs.mediumSelect m).doorbells

end Sys2Proof.Machine

open Sys2Proof Sys2Proof.Machine

/-- Settles O60: each operation leaves the count of doorbell writes; the one that opens the gate, `LINK.UP`, has no PULLER
inside it. -/
theorem noDoorbellWhileTheLinkIsDown : Obligations.NoDoorbellWhileTheLinkIsDown := by
  intro i s t hp hv hl h
  have hcfg : t.cfg = s.cfg := (exec_writes h).cfg
  have hcount := doorbells_exec hp hl h
  rw [doorbells_of_valid hv, doorbells_of_valid (by rw [hcfg]; exact hv), hcfg] at hcount
  exact hcount
end

section
/-! SUPPORT. Events, the watchdog, polling and the refusals of the mode table (60_exceptions.md R240, R254, R255, R262, R265,
R270; O9, O44, O45, O50, O51). -/

namespace Sys2Proof.Machine

variable {s t : State}

/-! ### What a forced reset keeps (60_exceptions.md R259) -/

theorem devReset_writes (s : State) : Writes [] (ledger s) (ledger (devReset s)) := (Writes.refl [] (ledger s)).devReset

theorem resetCount_devReset (s : State) : (devReset s).stats.resetCount = s.stats.resetCount :=
  (devReset_writes s).stat_eq (c := .resetCount) (by simp) (by simp [pullStats])

/-- Nothing is counted where no other agent steps inside. -/
theorem Writes.stats_eq_of_during {W : List Entry} (h : Writes W (ledger s) (ledger t)) (hW : ∀ c, .stat c ∉ W)
    (hd : s.env.during = []) : t.stats = s.stats := by
  refine stats_ext fun c => (h.stats c).resolve_right ?_
  rintro (hc | ⟨-, hp⟩)
  · exact hW c hc
  · simp [Ledger.PullInside, ledger, hd] at hp

theorem stats_devReset (hd : s.env.during = []) : (devReset s).stats = s.stats :=
  (devReset_writes s).stats_eq_of_during (by simp) hd

theorem doneCount_devReset (s : State) : (devReset s).tx.doneCount = s.tx.doneCount :=
  (devReset_writes s).doneCount.resolve_right (by simp)

/-- The link is down and the watchdog not armed, whatever the MAC and the allocators answer. -/
theorem devReset_flags (he : s.flags.enabled = true) :
    (devReset s).flags.linkUp = false ∧ (devReset s).flags.wdtArmed = false :=
  (devReset_row (.inl he)).elim (fun h => ⟨h.linkUp, h.wdtArmed⟩) (fun h => ⟨h.linkUp, h.wdtArmed⟩)

theorem exec_devReset (he : s.flags.enabled = true) : exec .devReset s = .next (devReset s) :=
  congrArg Host.Outcome.next (if_pos he)

/-! ### One tick (60_exceptions.md R262) -/

/-- The state that declares the deadlock. -/
def deadlocked (s : State) : State :=
  { s with
    wdt := { s.wdt with stallTicks := s.wdt.stallTicks + 1 }, stats := { s.stats with resetCount := s.stats.resetCount + 1 }
    trace := .log .transmitDeadlock :: .raised .hwDeadlock :: s.trace }

theorem exec_wdtTick (s : State) : exec .wdtTick s = .next ((wdtTick s).setResult .returned) := rfl

theorem wdtTick_unarmed (h : ¬(s.flags.enabled = true ∧ s.flags.wdtArmed = true)) : wdtTick s = s :=
  if_neg (by simpa using h)

theorem wdtTick_progress (he : s.flags.enabled = true) (hw : s.flags.wdtArmed = true) (h : tickStalled s = false) :
    wdtTick s = s.setWdt { lastDone := s.tx.doneCount, stallTicks := 0 } := by simp [wdtTick, he, hw, h]

theorem wdtTick_counts (he : s.flags.enabled = true) (hw : s.flags.wdtArmed = true) (h : tickStalled s = true)
    (hk : s.wdt.stallTicks + 1 ≠ s.cfg.wdtStallThreshold) :
    wdtTick s = s.setWdt { lastDone := s.tx.doneCount, stallTicks := s.wdt.stallTicks + 1 } := by
  simp [wdtTick, stalledTick, he, hw, h, hk, State.setWdt]

theorem wdtTick_fires (he : s.flags.enabled = true) (hw : s.flags.wdtArmed = true) (h : tickStalled s = true)
    (hk : s.wdt.stallTicks + 1 = s.cfg.wdtStallThreshold) : wdtTick s = devReset (deadlocked s) := by
  simp only [wdtTick, he, hw, h, Bool.and_true, if_true]
  exact if_pos hk

theorem tickStalled_iff : tickStalled s = true ↔ s.tx.doneCount = s.wdt.lastDone ∧ s.tx.numFree.toInt < s.cfg.nTx := by
  simp [tickStalled]

/-! ### Ticks in a row (60_exceptions.md R265) -/

theorem ticks_add (m n : Nat) (s : State) : ticks (m + n) s = andThen (ticks m s) (ticks n) := by
  induction m generalizing s with
  | zero => rw [Nat.zero_add]; rfl
  | succ m ih =>
    rw [Nat.succ_add, ticks, exec_wdtTick, andThen_next, ih, ticks, exec_wdtTick, andThen_next]

/-- Ticks of a watchdog that is not armed do nothing. -/
theorem ticks_unarmed (n : Nat) (hw : s.flags.wdtArmed = false) (hr : s.result = .returned) : ticks n s = .next s := by
  induction n with
  | zero => rfl
  | succ n ih =>
    have hsame : s.setResult .returned = s := by rw [← hr]; rfl
    rw [ticks, exec_wdtTick, wdtTick_unarmed (by simp [hw]), hsame, andThen_next, ih]

/-- The state `k` stalled ticks leave. -/
def tickedTo (k : Nat) (s : State) : State :=
  { s with wdt := { lastDone := s.tx.doneCount, stallTicks := k }, result := .returned }

/-- An armed watchdog, as it was armed, before outstanding work (60_exceptions.md R263). -/
structure ArmedAndStalled (s : State) : Prop where
  enabled : s.flags.enabled = true
  armed : s.flags.wdtArmed = true
  wdt : s.wdt = { lastDone := s.tx.doneCount, stallTicks := 0 }
  work : s.tx.numFree.toInt < s.cfg.nTx

/-- Below the threshold the ticks only count. -/
theorem ticks_below {k : Nat} (h : ArmedAndStalled s) (hk : k + 1 < s.cfg.wdtStallThreshold) :
    ticks (k + 1) s = .next (tickedTo (k + 1) s) := by
  induction k with
  | zero =>
    have hstall : tickStalled s = true := tickStalled_iff.2 ⟨by rw [h.wdt], h.work⟩
    have hne : s.wdt.stallTicks + 1 ≠ s.cfg.wdtStallThreshold := by rw [h.wdt]; exact Nat.ne_of_lt hk
    rw [ticks, exec_wdtTick, wdtTick_counts h.enabled h.armed hstall hne, h.wdt]
    rfl
  | succ k ih =>
    have hstall : tickStalled (tickedTo (k + 1) s) = true := tickStalled_iff.2 ⟨rfl, h.work⟩
    have hne : k + 1 + 1 ≠ s.cfg.wdtStallThreshold := by omega
    rw [ticks_add (k + 1) 1, ih (by omega), andThen_next, ticks, exec_wdtTick,
      wdtTick_counts (s := tickedTo (k + 1) s) h.enabled h.armed hstall hne]
    rfl

/-- The tick at the threshold declares the deadlock. -/
theorem ticks_threshold (h : ArmedAndStalled s) (hk : 0 < s.cfg.wdtStallThreshold) :
    ∃ v, v.cfg = s.cfg ∧ v.flags = s.flags ∧ v.stats = s.stats ∧ v.wdt.stallTicks + 1 = s.cfg.wdtStallThreshold ∧
      ticks s.cfg.wdtStallThreshold s = .next ((devReset (deadlocked v)).setResult .returned) := by
  obtain ⟨n, hn⟩ : ∃ n, s.cfg.wdtStallThreshold = n + 1 := ⟨_, (Nat.succ_pred_eq_of_pos hk).symm⟩
  cases n with
  | zero =>
    have hstall : tickStalled s = true := tickStalled_iff.2 ⟨by rw [h.wdt], h.work⟩
    have hfire : s.wdt.stallTicks + 1 = s.cfg.wdtStallThreshold := by rw [h.wdt, hn]
    refine ⟨s, rfl, rfl, rfl, hfire, ?_⟩
    rw [hn, ticks, exec_wdtTick, wdtTick_fires h.enabled h.armed hstall hfire]
    rfl
  | succ n =>
    have hstall : tickStalled (tickedTo (n + 1) s) = true := tickStalled_iff.2 ⟨rfl, h.work⟩
    refine ⟨tickedTo (n + 1) s, rfl, rfl, rfl, hn.symm, ?_⟩
    rw [hn, ticks_add (n + 1) 1, ticks_below h (by omega), andThen_next, ticks, exec_wdtTick,
      wdtTick_fires (s := tickedTo (n + 1) s) h.enabled h.armed hstall hn.symm]
    rfl

theorem Cfg.wdtStallThreshold_pos {c : Cfg} (h : c.valid = true) : 0 < c.wdtStallThreshold := by
  simp only [Cfg.valid, Cfg.poolValid, Bool.and_eq_true, decide_eq_true_eq] at h
  omega

/-! ### POLL.SERVICE (60_exceptions.md R255) -/

theorem pollService_off (b : Option Nat) (h : ¬(s.flags.enabled = true ∧ s.flags.pollMode = true)) :
    pollService b s = .next (s.setResult (.count 0)) := if_neg (by simpa using h)

/-- In poll mode it is the two operations requested one after the other: the reclaim leaves the interface enabled. -/
theorem exec_pollService (b : BitVec 24) (he : s.flags.enabled = true) (hp : s.flags.pollMode = true) :
    exec (.pollService b) s = andThen (exec .txReclaim s) (exec (.rxDrain b)) := by
  have hpoll : exec (.pollService b) s = andThen (reclaim s) (drain (budgetOf b)) := by
    change pollService (budgetOf b) s = _
    simp [pollService, he, hp]
  have hclaim : exec .txReclaim s = reclaim s := if_pos he
  rw [hpoll, hclaim]
  cases hr : reclaim s with
  | next u =>
    have hu : u.flags.enabled = true := by rw [(keepsTable_reclaim hr).flags]; exact he
    exact (if_pos hu).symm
  | fault f => rfl
  | refused p => rfl

/-- With nothing completed and no stalled queue to wake a reclaim does nothing (41_transmit.md R180). -/
theorem exec_txReclaim_none (he : s.flags.enabled = true) (hc : hwConsumer s = s.tx.dirty) (hs : s.tx.stalled = false) :
    exec .txReclaim s = .next (s.setResult .returned) := by
  have hin : consumerInside s = true := by simp [consumerInside, hc]
  have hwake : wake s = s := by simp [wake, wakeDue, hs]
  have hclaim : exec .txReclaim s = reclaim s := if_pos he
  rw [hclaim, reclaim, if_pos hin, reclaimTo, hc, dist_self, reclaimMany, hwake]

end Sys2Proof.Machine

open Sys2Proof Sys2Proof.Machine

/-- Settles O9: each event by unfolding what it counts. -/
theorem eventsOnlyCount : Obligations.EventsOnlyCount := by
  intro s
  exact ⟨rfl, rfl, rfl, rfl, rfl, rfl, rfl, rfl, rfl, rfl, rfl⟩

/-- Settles O44: the lemma of each case; the deadlock case ends in a reset, whose row of the mode table gives the flags. -/
theorem watchdogTickCases : Obligations.WatchdogTickCases := by
  intro s
  refine ⟨fun h => ?_, fun he hw => ⟨fun h => ?_, fun hc hf => ⟨fun hk => ?_, fun hk => ?_⟩⟩⟩
  · rw [exec_wdtTick, wdtTick_unarmed h]
    rfl
  · rw [exec_wdtTick, wdtTick_progress he hw (Bool.eq_false_iff.2 (tickStalled_iff.not.2 h))]
    rfl
  · rw [exec_wdtTick, wdtTick_counts he hw (tickStalled_iff.2 ⟨hc, hf⟩) hk]
    rfl
  · have hflags := devReset_flags (s := deadlocked s) he
    refine ⟨_, _, exec_devReset (s := deadlocked s) he, ?_, rfl, hflags.1, hflags.2,
      fun hd => stats_devReset (s := deadlocked s) hd⟩
    rw [exec_wdtTick, wdtTick_fires he hw (tickStalled_iff.2 ⟨hc, hf⟩) hk]
    rfl

/-- Settles O45, by induction on the ticks; what follows the deadlock is a watchdog that is not armed. -/
theorem deadlockFiresAtTheThreshold : Obligations.DeadlockFiresAtTheThreshold := by
  intro s hv he hw hwdt hfree
  have h : ArmedAndStalled s := ⟨he, hw, hwdt, hfree⟩
  refine ⟨fun k hk hlt => ?_, ?_⟩
  · obtain ⟨n, rfl⟩ : ∃ n, k = n + 1 := ⟨_, (Nat.succ_pred_eq_of_pos hk).symm⟩
    exact ticks_below h hlt
  · obtain ⟨v, -, hflags, hstats, hcount, hticks⟩ := ticks_threshold h (Cfg.wdtStallThreshold_pos hv)
    have harmed : (devReset (deadlocked v)).flags.wdtArmed = false :=
      (devReset_flags (s := deadlocked v) (by rw [← hflags] at he; exact he)).2
    refine ⟨_, hticks, ?_, harmed, ?_, fun j => ?_⟩
    · rw [State.setResult_stats, resetCount_devReset, ← hstats]
      rfl
    · rw [State.setResult_wdt, (devReset_frame _).2.1]
      exact hcount
    · rw [ticks_add, hticks, andThen_next]
      exact ticks_unarmed j harmed rfl

/-- Settles O50: a service is the reclaim and the drain requested in turn, each of which ends at once with nothing to do. -/
theorem pollOperations : Obligations.PollOperations := by
  intro s on b
  refine ⟨?_, fun h => pollService_off _ h, fun he hp => ⟨exec_pollService b he hp, fun hready hc hs hu => ?_⟩⟩
  · change Host.Outcome.next (setPollMode on s) = _
    unfold setPollMode
    split <;> rfl
  · have hready' : DrainReady (s.setResult .returned) := hready
    rw [exec_pollService b he hp, exec_txReclaim_none he hc hs, andThen_next, exec_rxDrain_stops hready' (.inr hu),
      refillCheck_eq]
    rfl

/-- Settles O51: each operation at its first test. -/
theorem modeTableRefusals : Obligations.ModeTableRefusals := by
  intro s b on
  have hdisabled : mode s = .disabled ↔ s.flags.enabled = false := by
    unfold mode
    cases s.flags.enabled <;> cases s.flags.linkUp <;> simp
  refine ⟨fun h => ?_, fun h => ?_, fun h => ?_, fun hr => ?_, fun hr he => ?_⟩
  · have he : ¬s.flags.enabled = true := by simpa using hdisabled.1 h
    have hoff : (!s.flags.enabled || s.flags.linkUp) = true := by simp [he]
    refine ⟨if_neg he, if_neg he, congrArg Host.Outcome.next (if_neg he), if_pos hoff, congrArg Host.Outcome.next (if_neg he),
      congrArg Host.Outcome.next (if_neg he), if_neg he, ?_, pollService_off _ (fun hn => he hn.1),
      congrArg Host.Outcome.next (if_neg he)⟩
    rw [exec_wdtTick, wdtTick_unarmed fun hn => he hn.1]
    rfl
  · have hup : (!s.flags.enabled || s.flags.linkUp) = true := by
      have hl : s.flags.linkUp = true := by
        by_contra hl
        rw [mode, if_neg hl] at h
        split at h <;> cases h
      rw [hl, Bool.or_true]
    exact if_pos hup
  · have he : s.flags.enabled = true := by simpa using hdisabled.not.1 h
    have hon (x : Bool) : (s.flags.enabled || x) = true := by simp [he]
    exact ⟨congrArg Host.Outcome.next (if_pos (hon _)), congrArg Host.Outcome.next (if_pos (hon _)), if_pos (hon _)⟩
  · have hnone : (!s.flags.ringsUp) = true := by simp [hr]
    exact ⟨if_pos hnone, if_pos hnone, if_pos (by simp [hr])⟩
  · exact congrArg Host.Outcome.next (if_pos (by simp [hr]))
end

section
/-! SUPPORT. The interrupt dispatch with no other agent inside it (60_exceptions.md R249 to R253; O46, O47, O48). -/

namespace Sys2Proof.Machine

variable {s t : State} {w : Word}

/-! ### Status words (10_state.md R44, R59) -/

theorem hasBit_iff {m : Word} : hasBit w m = true ↔ w &&& m ≠ 0#32 := by simp [hasBit]

theorem hasBit_eq_false {m : Word} (h : w &&& m = 0#32) : hasBit w m = false := by simp [hasBit, h]

/-- The entry write acknowledges the bits that were read, and the exit write lowers `DIS`: what came between the read and the
entry write stays. -/
theorem isrWrite_entry_exit (dis old w : Word) :
    isrWrite dis (isrWrite dis old (w ||| dis)) 0#32 = old &&& ~~~w &&& ~~~dis := by
  refine BitVec.eq_of_getLsbD_eq fun i hi => ?_
  simp only [getLsbD_isrWrite, BitVec.getLsbD_or, BitVec.getLsbD_and, BitVec.getLsbD_not, BitVec.getLsbD_zero, hi]
  cases dis.getLsbD i <;> simp

/-- Bits clear of `DIS` are what the MAC sets of them. -/
theorem and_not_of_and_eq_zero {late dis : Word} (h : late &&& dis = 0#32) : late &&& ~~~dis = late := by
  refine BitVec.eq_of_getLsbD_eq fun i hi => ?_
  have hbit : (late.getLsbD i && dis.getLsbD i) = false := by simpa using congrArg (·.getLsbD i) h
  rw [BitVec.getLsbD_and, BitVec.getLsbD_not, decide_eq_true hi]
  cases hl : late.getLsbD i
  · rfl
  · rw [hl, Bool.true_and] at hbit
    rw [hbit]
    rfl

theorem isrWrite_acknowledged (dis w : Word) : isrWrite dis (isrWrite dis w (w ||| dis)) 0#32 = 0#32 := by
  rw [isrWrite_entry_exit, BitVec.and_not_self]
  exact BitVec.zero_and

theorem regWrite_isr (v : Word) (s : State) : regWrite .isr v s = { s with
    mac := { s.mac with regs := { s.mac.regs with isr := isrWrite s.cfg.isr.dis s.mac.regs.isr v } }
    trace := .regWrite s.cfg.regmap.isr.offset s.cfg.regmap.isr.width v :: s.trace } := rfl

/-! ### The steps of a dispatch -/

theorem exec_irqDispatch (he : s.flags.enabled = true) : exec .irqDispatch s = dispatch s := if_pos he

/-- A fatal bit (R250). -/
theorem dispatch_fatal (h : s.mac.regs.isr &&& s.cfg.isr.fatal ≠ 0#32) :
    dispatch s = .next ((fatalReset (dispatchEntry s)).setResult .returned) := if_pos (hasBit_iff.2 h)

/-- No fatal bit. -/
theorem dispatch_serve (h : s.mac.regs.isr &&& s.cfg.isr.fatal = 0#32) :
    dispatch s = serve s.mac.regs.isr (dispatchEntry s) := if_neg (by rw [regRead, hasBit_eq_false h]; simp)

theorem serveEngines_skipped (h : s.flags.pollMode = true ∨ w &&& s.cfg.isr.tx = 0#32 ∧ w &&& s.cfg.isr.rx = 0#32) :
    serveEngines w s = .next s := by
  unfold serveEngines
  split
  · rfl
  · rename_i hp
    obtain ⟨htx, hrx⟩ := h.resolve_left hp
    simp [serveTx, serveRx, hasBit_eq_false htx, hasBit_eq_false hrx]

theorem serveLink_skipped (h : w &&& s.cfg.isr.link = 0#32) : serveLink w s = .next s := by
  simp [serveLink, hasBit_eq_false h]

theorem serveTx_reclaims (h : w &&& s.cfg.isr.tx ≠ 0#32) (hd : s.env.during = []) : serveTx w s = exec .txReclaim s := by
  rw [serveTx, if_pos (hasBit_iff.2 h), macPoint_of_during_nil hd]
  rfl

theorem serveTx_skipped (h : w &&& s.cfg.isr.tx = 0#32) : serveTx w s = .next s := by simp [serveTx, hasBit_eq_false h]

theorem serveRx_skipped (h : w &&& s.cfg.isr.rx = 0#32) : serveRx w s = .next s := by simp [serveRx, hasBit_eq_false h]

/-- The bound on the receive service, as the budget of a requested drain (R204). -/
theorem budgetOf_nRrd {c : Cfg} (h : c.valid = true) : budgetOf (BitVec.ofNat 24 c.nRrd) = some c.nRrd := by
  obtain ⟨-, ⟨e, he, hn⟩, -⟩ := Cfg.rx_of_valid h
  have hle : c.nRrd ≤ 2 ^ 16 := hn ▸ Nat.pow_le_pow_right (by omega) he
  have hval : (BitVec.ofNat 24 c.nRrd).toNat = c.nRrd := by
    rw [BitVec.toNat_ofNat, Nat.mod_eq_of_lt (by omega)]
  have hne : BitVec.ofNat 24 c.nRrd ≠ 0xFFFFFF#24 := fun h => by
    have := congrArg BitVec.toNat h
    rw [hval] at this
    simp at this
    omega
  rw [budgetOf, if_neg hne, hval]

/-- The receive service is the drain requested with that budget and, behind it, the flush. -/
theorem serveRx_drains (h : w &&& s.cfg.isr.rx ≠ 0#32) (hv : s.cfg.valid = true) (he : s.flags.enabled = true)
    (hx : exec (.rxDrain (BitVec.ofNat 24 s.cfg.nRrd)) s = .next t) :
    serveRx w s = .next { t with trace := (if 0 < countOf t.result then [.flushBatch] else []) ++ t.trace } := by
  have hdrain : drain (some s.cfg.nRrd) s = .next t := by
    rw [← hx, ← budgetOf_nRrd hv]
    exact (if_pos he).symm
  rw [serveRx, if_pos (hasBit_iff.2 h), rxService, hdrain, andThen_next]
  by_cases hc : countOf t.result = 0
  · simp [hc]
  · rw [if_neg hc, if_pos (Nat.pos_of_ne_zero hc)]
    rfl

theorem serveLink_evaluates (h : w &&& s.cfg.isr.link ≠ 0#32) (hd : s.env.during = []) : serveLink w s = linkEval s := by
  rw [serveLink, if_pos (hasBit_iff.2 h), macPoint_of_during_nil hd]

/-- A dispatch step by step: the log, the engines, the link, the exit write. -/
theorem serve_eq {u v : State} (hu : serveEngines w (logAlert w s) = .next u) (hv : serveLink w u = .next v) :
    serve w s = .next ((regWrite .isr 0#32 v).setResult .returned) := by
  rw [serve, hu, andThen_next, serveEnd, hv, andThen_next, dispatchExit]

theorem dispatchEntry_eq (hd : s.env.during = []) :
    dispatchEntry s = regWrite .isr (s.mac.regs.isr ||| s.cfg.isr.dis) s := by
  rw [dispatchEntry, macPoint_of_during_nil hd]
  rfl

theorem during_nil_of_writes {W : List Entry} (h : Writes W (ledger s) (ledger t)) (hd : s.env.during = []) :
    t.env.during = [] :=
  List.eq_nil_iff_forall_not_mem.2 fun l hl => by
    have := h.during l hl
    simp [ledger, hd] at this

/-- What an engine leaves of what the rest of a dispatch reads. -/
theorem engine_keeps {i : Instr} (hi : engineOp i = true) (h : exec i s = .next t) (hd : s.env.during = []) :
    t.cfg = s.cfg ∧ t.flags = s.flags ∧ t.env.during = [] :=
  ⟨(keepsTable_exec hi h).cfg, (keepsTable_exec hi h).flags, during_nil_of_writes (exec_writes h) hd⟩

/-- The engines of a dispatch are the operations requested one after the other, each where its bit is set (R249 step 3). -/
theorem serveEngines_eq {u v : State} (hv : s.cfg.valid = true) (he : s.flags.enabled = true) (hd : s.env.during = [])
    (htx : if s.flags.pollMode = false ∧ w &&& s.cfg.isr.tx ≠ 0#32 then exec .txReclaim s = .next u else u = s)
    (hrx : if s.flags.pollMode = false ∧ w &&& s.cfg.isr.rx ≠ 0#32
      then exec (.rxDrain (BitVec.ofNat 24 s.cfg.nRrd)) u = .next v ∧
        t = { v with trace := (if 0 < countOf v.result then [.flushBatch] else []) ++ v.trace }
      else t = u) :
    serveEngines w s = .next t ∧ t.env.during = [] := by
  cases hp : s.flags.pollMode with
  | true =>
    rw [if_neg (by simp [hp])] at htx hrx
    subst hrx htx
    exact ⟨serveEngines_skipped (.inl hp), hd⟩
  | false =>
    have htx' : serveTx w s = .next u ∧ u.cfg = s.cfg ∧ u.flags = s.flags ∧ u.env.during = [] := by
      by_cases hb : w &&& s.cfg.isr.tx = 0#32
      · rw [if_neg (by simp [hb])] at htx
        subst htx
        exact ⟨serveTx_skipped hb, rfl, rfl, hd⟩
      · rw [if_pos ⟨hp, hb⟩] at htx
        exact ⟨(serveTx_reclaims hb hd).trans htx, engine_keeps rfl htx hd⟩
    obtain ⟨hserved, hcfg, hflags, hdu⟩ := htx'
    have hengines : serveEngines w s = serveRx w u := by
      rw [serveEngines, if_neg (by simp [hp]), hserved, andThen_next]
    rw [hengines]
    by_cases hb : w &&& s.cfg.isr.rx = 0#32
    · rw [if_neg (by simp [hb])] at hrx
      subst hrx
      exact ⟨serveRx_skipped (by rw [hcfg]; exact hb), hdu⟩
    · rw [if_pos ⟨hp, hb⟩] at hrx
      obtain ⟨hx, rfl⟩ := hrx
      obtain ⟨-, -, hdv⟩ := engine_keeps rfl hx hdu
      exact ⟨serveRx_drains (by rw [hcfg]; exact hb) (by rw [hcfg]; exact hv) (by rw [hflags]; exact he)
        (by rw [hcfg]; exact hx), hdv⟩

/-- The engines keep the configuration. -/
theorem cfg_serveEngines (h : serveEngines w s = .next t) : t.cfg = s.cfg := (serveEngines_writes h).cfg

end Sys2Proof.Machine

open Sys2Proof Sys2Proof.Machine

/-- Settles O46: neither engine nor link has a bit to serve, so that the entry write, the log and the exit write are all. -/
theorem dispatchAcknowledgesWhatItRead : Obligations.DispatchAcknowledgesWhatItRead := by
  intro s late
  refine ⟨fun he => if_neg (by simp [he]), fun he hd hfatal hlink hengines => ?_, fun he hd hisr hlate => ?_⟩
  · have hlog := logAlert_dispatchEntry hd
    rw [exec_irqDispatch he, dispatch_serve hfatal,
      serve_eq (serveEngines_skipped (by rw [hlog]; exact hengines)) (serveLink_skipped (by rw [hlog]; exact hlink)), hlog,
      regWrite_isr]
    simp only [isrWrite_acknowledged]
    rfl
  · have hnone (m : Word) : s.mac.regs.isr &&& m = 0#32 := by simp [hisr]
    have hpoint : macPoint s = setStatus late (dropPoint s) := by
      rw [macPoint, hd]
      rfl
    have hentry : dispatchEntry s = regWrite .isr (0#32 ||| s.cfg.isr.dis) (setStatus late (dropPoint s)) := by
      rw [dispatchEntry, hpoint, regRead, hisr]
    have hlog : logAlert s.mac.regs.isr (dispatchEntry s) = dispatchEntry s := by
      rw [logAlert, hasBit_eq_false (hnone _)]
      rfl
    refine ⟨(regWrite .isr 0#32 (regWrite .isr (0#32 ||| s.cfg.isr.dis) (setStatus late (dropPoint s)))).setResult .returned,
      ?_, ?_, by simp, by simp, by simp, by simp, by simp⟩
    · rw [exec_irqDispatch he, dispatch_serve (hnone _),
        serve_eq (serveEngines_skipped (.inr ⟨hnone _, hnone _⟩)) (serveLink_skipped (hnone _)), hlog, hentry]
    · have hold : (setStatus late (dropPoint s)).mac.regs.isr = late := by
        change s.mac.regs.isr ||| (late &&& ~~~s.cfg.isr.dis) = late
        rw [hisr, and_not_of_and_eq_zero hlate, BitVec.zero_or]
      change isrWrite s.cfg.isr.dis (isrWrite s.cfg.isr.dis (setStatus late (dropPoint s)).mac.regs.isr _) 0#32 = late
      rw [isrWrite_entry_exit, hold, BitVec.not_zero, BitVec.and_allOnes, and_not_of_and_eq_zero hlate]

/-- Settles O47: the fatal bit is tested first, and the reset counts nothing more. -/
theorem fatalInterruptResets : Obligations.FatalInterruptResets := by
  intro s he hd hfatal
  let v := log .fatalInterrupt (raise .hwFatal (dispatchEntry s))
  have hentry := dispatchEntry_eq hd
  have hv : v = { dispatchEntry s with
      stats := { s.stats with resetCount := s.stats.resetCount + 1 }
      trace := .log .fatalInterrupt :: .raised .hwFatal ::
        .regWrite s.cfg.regmap.isr.offset s.cfg.regmap.isr.width (s.mac.regs.isr ||| s.cfg.isr.dis) :: s.trace } := by
    simp only [v, hentry]
    rfl
  have he' : v.flags.enabled = true := by simpa [v, hentry] using he
  have hd' : v.env.during = [] := by simpa [v, hentry] using hd
  refine ⟨(devReset v).setResult .returned, devReset v, ?_, ?_, rfl, ?_, ?_, (devReset_flags he').1, (devReset_flags he').2, ?_⟩
  · rw [← hv]
    exact exec_devReset he'
  · rw [exec_irqDispatch he, dispatch_fatal hfatal]
    rfl
  · rw [State.setResult_stats, stats_devReset hd', hv]
  · rw [State.setResult_tx, doneCount_devReset, hv, hentry]
    rfl
  · rw [State.setResult_medium, (devReset_frame v).2.2.1, hv, hentry]
    rfl

/-- Settles O48: each of the steps between the entry and the exit, with its bit set and with its bit clear. -/
theorem dispatchServesTheEngines : Obligations.DispatchServesTheEngines := by
  intro s e u v w x hv he hd status hfatal hentry htx hrx hlink
  have hlog : logAlert s.mac.regs.isr (dispatchEntry s) = e := (logAlert_dispatchEntry hd).trans hentry.symm
  have hcfg : e.cfg = s.cfg := by rw [hentry]
  have hflags : e.flags = s.flags := by rw [hentry]
  have hde : e.env.during = [] := by rw [hentry]; exact hd
  rw [← hcfg, ← hflags] at htx hrx
  obtain ⟨hengines, hdw⟩ := serveEngines_eq (by rw [hcfg]; exact hv) (by rw [hflags]; exact he) hde htx hrx
  have hcw : w.cfg = s.cfg := (cfg_serveEngines hengines).trans hcfg
  have hlinked : serveLink status w = .next x := by
    split at hlink
    · rename_i hb
      rw [hlink, serveLink_skipped (by rw [hcw]; exact hb)]
    · rename_i hb
      rw [serveLink_evaluates (by rw [hcw]; exact hb) hdw, hlink]
  have hcx : x.cfg = s.cfg := by
    split at hlink
    · rw [hlink, hcw]
    · exact ((Writes.refl [] (ledger w)).linkEval hlink).cfg.trans hcw
  refine ⟨(regWrite .isr 0#32 x).setResult .returned, ?_, ?_⟩
  · rw [exec_irqDispatch he, dispatch_serve hfatal]
    exact serve_eq (by rw [hlog]; exact hengines) hlinked
  · rw [regWrite_isr, hcx]
    rfl
end

section
/-! SUPPORT. The administrative operations with no other agent inside them, as equations of states (60_exceptions.md R257, R258,
R260, R264). -/

namespace Sys2Proof.Machine

variable {s t : State}

/-! ### Hardware calls (60_exceptions.md R246) -/

/-- The answer the next hardware call gets: a settled one, else a free value. -/
def hwAnswer (e : Env) : HwAnswer := e.hw.headD (Config.hwAnswer e.draws)

/-- The environment once it has answered. -/
def envAfterHw (e : Env) : Env := { e with hw := e.hw.tail, draws := if e.hw.isEmpty then e.draws + 1 else e.draws }

/-- An answer is no timeout. -/
def HwAnswer.isOk : HwAnswer → Bool
  | .ok => true
  | .timeout _ => false

/-- What a call that is so answered makes of the MAC. -/
def macAfter (c : HwCall) (a : HwAnswer) (m : Mac) : Mac :=
  match a with
  | .ok => hwEffect c m
  | .timeout d => hwTimeout c d m

/-- The state behind a call that is so answered. -/
def called (c : HwCall) (a : HwAnswer) (e : Env) (s : State) : State :=
  (((beforeCall c s).setEnv e).setMac (macAfter c a s.mac)).emit (.hw c (HwAnswer.isOk a))

theorem hwCall_eq (c : HwCall) (s : State) :
    hwCall c s = (HwAnswer.isOk (hwAnswer s.env), called c (hwAnswer s.env) (envAfterHw s.env) s) := by
  have hnext : nextHw (beforeCall c s) = (hwAnswer s.env, (beforeCall c s).setEnv (envAfterHw s.env)) := by
    unfold nextHw hwAnswer envAfterHw
    simp only [beforeCall_frame]
    cases hw : s.env.hw <;> simp [drawn, hw]
  rw [hwCall, hnext]
  cases hwAnswer s.env <;> simp [called, macAfter, HwAnswer.isOk]

/-! ### The flush of the queue (60_exceptions.md R258) -/

/-- With no other agent inside it the flush releases what is queued, in order. -/
theorem flushOutbound_eq (hd : s.env.during = []) : flushOutbound s = { s with
    env := { s.env with outbound := [] }
    trace := (s.env.outbound.map (Act.release · false)).reverse ++ s.trace } := by
  have hloop (l : List Frame) : ∀ (n : Nat) (s : State), s.env.during = [] → s.env.outbound = l → l.length ≤ n →
      flushLoop n s = { s with
        env := { s.env with outbound := [] }, trace := (l.map (Act.release · false)).reverse ++ s.trace } := by
    induction l with
    | nil =>
      intro n s _ ho _
      have hsame : ({ s with env := { s.env with outbound := [] }, trace := [] ++ s.trace } : State) = s := by rw [← ho]; rfl
      have hloop : flushLoop n s = s := by cases n <;> simp [flushLoop, dequeueOutbound, ho]
      exact hloop.trans hsame.symm
    | cons f rest ih =>
      intro n s hd ho hn
      obtain ⟨k, rfl⟩ : ∃ k, n = k + 1 := ⟨n - 1, by simp at hn; omega⟩
      let u := releaseFrame f false (s.setEnv { s.env with outbound := rest })
      have hu : macPoint u = u := macPoint_of_during_nil hd
      have hstep : flushLoop (k + 1) s = flushLoop k u := by simp only [flushLoop, dequeueOutbound, ho, u, hu]
      rw [hstep, ih k u hd rfl (by simpa using hn)]
      simp [u, releaseFrame, State.setEnv, State.emit]
  exact hloop _ _ s hd rfl (Nat.le_add_right _ _)

/-! ### DEV.DISABLE (60_exceptions.md R264) -/

theorem regWrite_imr (v : Word) (s : State) : regWrite .imr v s = { s with
    mac := { s.mac with regs := { s.mac.regs with imr := v } }
    trace := .regWrite s.cfg.regmap.imr.offset s.cfg.regmap.imr.width v :: s.trace } := rfl

theorem reachAll_eq (s : State) :
    reachAll s = { s with late := lateAfter s.posted.length s.late, posted := [] } := by
  rw [reachAll, reach, List.drop_length]
  rfl

theorem regFlush_eq (s : State) : regFlush s = { reachAll s with trace := .regFlush :: s.trace } := rfl

theorem disableInterrupts_eq (s : State) : disableInterrupts s = { reachAll s with
    intrMask := 0#32
    mac := { s.mac with regs := { s.mac.regs with isr := isrWrite s.cfg.isr.dis s.mac.regs.isr s.cfg.isr.dis, imr := 0#32 } }
    trace := [.regFlush, .regWrite s.cfg.regmap.isr.offset s.cfg.regmap.isr.width s.cfg.isr.dis,
      .regWrite s.cfg.regmap.imr.offset s.cfg.regmap.imr.width 0#32] ++ s.trace } := by
  rw [disableInterrupts, writeIntrMask, regWrite_imr, regWrite_isr, regFlush_eq, reachAll_eq, reachAll_eq]
  rfl

/-- The interrupt source off and flushed, and the flags cleared: R264 steps 1 to 3. -/
def silenced (s : State) : State :=
  { s with
    flags := { s.flags with enabled := false, linkUp := false, pollMode := false, wdtArmed := false }
    link := Link.down, intrMask := 0#32
    mac := { s.mac with regs := { s.mac.regs with isr := isrWrite s.cfg.isr.dis s.mac.regs.isr s.cfg.isr.dis, imr := 0#32 } }
    late := (reachAll s).late, posted := []
    trace := [.regFlush, .regWrite s.cfg.regmap.isr.offset s.cfg.regmap.isr.width s.cfg.isr.dis,
      .regWrite s.cfg.regmap.imr.offset s.cfg.regmap.imr.width 0#32] ++ s.trace }

theorem clearModeFlags_eq (s : State) : clearModeFlags (disableInterrupts (wdtCancel s)) = silenced s := by
  rw [disableInterrupts_eq, reachAll_eq]
  rfl

/-- The queue flushed besides: step 4. -/
def quieted (s : State) : State :=
  { silenced s with
    env := { s.env with outbound := [] }, trace := (s.env.outbound.map (Act.release · false)).reverse ++ (silenced s).trace }

theorem flushOutbound_silenced (hd : s.env.during = []) : flushOutbound (silenced s) = quieted s := flushOutbound_eq hd

/-- The MAC halted behind a reset that is so answered (log entry 9). -/
def haltedMac (a : HwAnswer) (m : Mac) : Mac :=
  { m with
    started := false, startedWith := none
    regs := match a with
      | .ok => DeviceRegs.zero
      | .timeout d => { d with imr := 0#32 } }

/-- What shows of the reset. -/
def resetActs (a : HwAnswer) : List Act :=
  match a with
  | .ok => [.hw .macReset true]
  | .timeout _ => [.hw .macReset false, .raised .cfgTimeout]

/-- The timeout event has no counter (60_exceptions.md R240). -/
theorem raise_cfgTimeout (s : State) : raise .cfgTimeout s = s.emit (.raised .cfgTimeout) := rfl

theorem resetForDisable_eq (himr : s.mac.regs.imr = 0#32) (hp : s.posted = []) : resetForDisable s = { s with
    mac := haltedMac (hwAnswer s.env) s.mac, env := envAfterHw s.env
    trace := (resetActs (hwAnswer s.env)).reverse ++ s.trace } := by
  have hreach : reachAll s = s := by
    rw [reachAll, reach, hp, List.length_nil, lateAfter_zero, List.drop_zero, ← hp]
    rfl
  rw [resetForDisable, hwCall_eq]
  cases hwAnswer s.env with
  | ok =>
    simp only [HwAnswer.isOk, called, beforeCall, hreach, macAfter, hwEffect]
    rfl
  | timeout d =>
    have hmask : s.mac.regs.imr &&& d.imr = 0#32 := by rw [himr]; exact BitVec.zero_and
    simp only [HwAnswer.isOk, called, beforeCall, hreach, macAfter, hwTimeout, hmask, raise_cfgTimeout, haltMac, State.emit,
      State.setMac, State.setEnv]
    rfl

/-- What a disable does, in the order of R264. -/
def disableActs (s : State) : List Act :=
  [.regWrite s.cfg.regmap.imr.offset s.cfg.regmap.imr.width 0#32,
    .regWrite s.cfg.regmap.isr.offset s.cfg.regmap.isr.width s.cfg.isr.dis, .regFlush] ++
    s.env.outbound.map (.release · false) ++ resetActs (hwAnswer s.env) ++ teardownActs s

/-- The state `DEV.DISABLE` of an enabled interface leaves. -/
def disabledState (s : State) : State :=
  { s with
    tx := { emptyTx s.cfg s.tx with mbuf := [] }, rx := { s.rx with next := 0#16, free := 0#16, mbuf := [] }
    pool := { spare := [], refillPending := false }
    flags := { enabled := false, linkUp := false, pollMode := false, wdtArmed := false, ringsUp := false }
    link := Link.down, intrMask := 0#32, mac := haltedMac (hwAnswer s.env) s.mac
    mem := zeroedRings (txClear s), late := heldAfterClear (rrdSlots s ++ rfdSlots s) (reachAll s), posted := []
    env := { envAfterHw s.env with outbound := [], live := s.env.live.diff (freedRegions s) }
    result := .ok, trace := (disableActs s).reverse ++ s.trace }

theorem zeroedRings_txClear (s : State) : zeroedRings (txClear s) =
    zeroRange (zeroRange (zeroRange (zeroRange s.mem s.tx.ringPhys (txBytes s.cfg)) s.tx.ringPhys (txBytes s.cfg))
      s.rx.rrdPhys (rrdBytes s.cfg)) s.rx.rfdPhys (rfdBytes s.cfg) := by
  rw [zeroedRings, txClear_eq]
  rfl

theorem disableSteps_eq (hd : s.env.during = []) : disableSteps s = disabledState s := by
  have hpoint1 : macPoint (silenced s) = silenced s := macPoint_of_during_nil hd
  have hreset := resetForDisable_eq (s := quieted s) rfl rfl
  have hpoint2 : macPoint (resetForDisable (quieted s)) = resetForDisable (quieted s) :=
    macPoint_of_during_nil (by rw [hreset]; exact hd)
  have hsteps : disableSteps s = (ringTeardown (macPoint (resetForDisable (flushOutbound (macPoint
      (clearModeFlags (disableInterrupts (wdtCancel s)))))))).setResult .ok := rfl
  rw [hsteps, clearModeFlags_eq, hpoint1, flushOutbound_silenced hd, hpoint2, ringTeardown_eq, hreset]
  refine State.eq_of_fields (h12 := ?mem) (h18 := ?trace) rfl rfl rfl rfl rfl rfl rfl rfl rfl rfl rfl rfl rfl rfl rfl rfl rfl rfl
    rfl rfl
  case mem =>
    rw [disabledState, zeroedRings_txClear, State.setResult_mem, zeroedRings_txClear]
    rfl
  case trace =>
    simp only [State.setResult_trace, disabledState, disableActs, List.reverse_append, List.append_assoc]
    rfl

end Sys2Proof.Machine
end

section
/-! SUPPORT. `DEV.ENABLE` and the link machine with no other agent inside them, as equations of states (60_exceptions.md R257,
R258, R260). -/

namespace Sys2Proof.Machine

variable {s t : State}

/-! ### Hardware calls that are answered -/

theorem hwCalls_ok {c : HwCall} {rest : List HwAnswer} (l : List HwCall) (h : s.env.hw = .ok :: rest) :
    hwCalls (c :: l) s = hwCalls l (called c .ok { s.env with hw := rest } s) := by
  rw [hwCalls, hwCall_ok h]
  rfl

theorem hwCalls_timeout {c : HwCall} {d : DeviceRegs} {rest : List HwAnswer} (l : List HwCall)
    (h : s.env.hw = .timeout d :: rest) :
    hwCalls (c :: l) s = (false, called c (.timeout d) { s.env with hw := rest } s) := by
  rw [hwCalls, hwCall_timeout h]
  rfl

/-- A reset of the MAC waits for the doorbell writes that are posted (20_memory.md R91). -/
theorem called_macReset (a : HwAnswer) (e : Env) (s : State) : called .macReset a e s = { s with
    mac := macAfter .macReset a s.mac, late := (reachAll s).late, posted := [], env := e
    trace := .hw .macReset (HwAnswer.isOk a) :: s.trace } := by
  simp only [called, beforeCall, reachAll_eq, State.setEnv, State.setMac, State.emit]

theorem called_other {c : HwCall} (hc : c ≠ .macReset) (a : HwAnswer) (e : Env) (s : State) : called c a e s = { s with
    mac := macAfter c a s.mac, env := e, trace := .hw c (HwAnswer.isOk a) :: s.trace } := by
  rw [called, beforeCall_other hc]
  rfl

/-- Several calls that are answered, none of them a reset. -/
def calledAll (l : List HwCall) (s : State) (hr : List HwAnswer) : State :=
  { s with
    mac := l.foldl (fun m c => hwEffect c m) s.mac, env := { s.env with hw := hr }
    trace := (l.map fun c => Act.hw c true).reverse ++ s.trace }

theorem hwCalls_all_ok {l : List HwCall} {hr : List HwAnswer} (hl : .macReset ∉ l)
    (h : s.env.hw = List.replicate l.length .ok ++ hr) : hwCalls l s = (true, calledAll l s hr) := by
  induction l generalizing s with
  | nil =>
    have hsame : calledAll [] s hr = s := by
      rw [← show s.env.hw = hr from h]
      rfl
    rw [hwCalls, hsame]
  | cons c l ih =>
    obtain ⟨hc, hl⟩ := not_or.1 (mt List.mem_cons.2 hl)
    rw [hwCalls_ok l h, ih hl rfl, called_other (Ne.symm hc)]
    simp [calledAll, macAfter, HwAnswer.isOk]

/-! ### DEV.ENABLE (60_exceptions.md R260) -/

/-- Once the four calls of step 2 have been answered. -/
def enableCalled (s : State) (hr : List HwAnswer) : State :=
  { s with
    mac := { started := true, startedWith := none, conf := macConf s, advertised := s.medium, regs := DeviceRegs.zero }
    late := (reachAll s).late, posted := [], env := { s.env with hw := hr }
    trace := [.hw (.macStart none) true, .hw (.setAdvertise s.medium) true, .hw (.macConfigure (macConf s)) true,
      .hw .macReset true] ++ s.trace }

theorem hwCalls_enable {hr : List HwAnswer} (h : s.env.hw = .ok :: .ok :: .ok :: .ok :: hr) :
    hwCalls (enableCalls s) s = (true, enableCalled s hr) := by
  rw [enableCalls, hwCalls_ok _ h, hwCalls_all_ok (hr := hr) (by simp) rfl, called_macReset]
  rfl

/-- The doorbell behind a reset that no doorbell write is posted across. -/
theorem offerAll_eq (hp : s.posted = []) (hz : s.mac.regs.rfdPidx = 0#16) : offerAll s = { s with
    mac := { s.mac with regs := { s.mac.regs with rfdPidx := BitVec.ofNat 16 (s.cfg.nRfd - 1) } }
    late := lateAfterReset s s.late, posted := postedAfterReset s
    trace := .regWrite s.cfg.regmap.rfdPidx.offset s.cfg.regmap.rfdPidx.width (BitVec.ofNat 32 (s.cfg.nRfd - 1)) ::
      s.trace } := by
  have hidx : (BitVec.ofNat 32 (s.cfg.nRfd - 1)).setWidth 16 = BitVec.ofNat 16 (s.cfg.nRfd - 1) :=
    BitVec.setWidth_ofNat_of_le (by decide) _
  have hlate : lateAfterBell s s.late = lateAfterReset s s.late := by rw [lateAfterBell, hp]; rfl
  have hposted : postedAfter .rx s = postedAfterReset s := by simp [postedAfter, postedAfterReset, hp, bellValue, hz]
  rw [← hidx, ← hlate, ← hposted]
  rfl

/-- What `DEV.ENABLE` does once the rings stand, in order. -/
def enableActs (s : State) : List Act :=
  [.hw .macReset true, .hw (.macConfigure (macConf s)) true, .hw (.setAdvertise s.medium) true, .hw (.macStart none) true,
    .regWrite s.cfg.regmap.rfdPidx.offset s.cfg.regmap.rfdPidx.width (BitVec.ofNat 32 (s.cfg.nRfd - 1)),
    .regWrite s.cfg.regmap.imr.offset s.cfg.regmap.imr.width (imrDown s.cfg)]

/-- The state `DEV.ENABLE` leaves, over the state with the rings set up. -/
def enabledState (s : State) (hr : List HwAnswer) : State :=
  { s with
    flags := { s.flags with enabled := true, linkUp := false, wdtArmed := false }, link := Link.down
    intrMask := imrDown s.cfg
    mac := { started := true, startedWith := none, conf := macConf s, advertised := s.medium,
             regs := freshRegs s.cfg (imrDown s.cfg) }
    late := lateAfterReset s (reachAll s).late, posted := postedAfterReset s, env := { s.env with hw := hr }
    result := .ok, trace := (enableActs s).reverse ++ s.trace }

theorem enableMac_ok {hr : List HwAnswer} (h : s.env.hw = .ok :: .ok :: .ok :: .ok :: hr) :
    enableMac s = enabledState s hr := by
  have hcalls := hwCalls_enable h
  have hoffer := offerAll_eq (s := enableCalled s hr) rfl rfl
  rw [enableMac, hcalls]
  simp only [enableDone, hoffer, writeIntrMask, regWrite_imr]
  simp only [State.setLink, State.setFlags, State.setIntrMask, State.setResult]
  rfl

/-! ### The link machine (60_exceptions.md R257, R258) -/

/-- The state `LINK.UP` leaves. -/
def linkedState (p : Link) (s : State) (hr : List HwAnswer) : State :=
  { s with
    link := p, flags := { s.flags with linkUp := true, wdtArmed := true }, intrMask := imrFull s.cfg
    mac := { s.mac with started := true, startedWith := some p, regs := { s.mac.regs with imr := imrFull s.cfg } }
    wdt := { lastDone := s.tx.doneCount, stallTicks := 0 }, env := { s.env with hw := hr, resumable := true }
    result := .ok
    trace := .signalResumable :: .regWrite s.cfg.regmap.imr.offset s.cfg.regmap.imr.width (imrFull s.cfg) ::
      .hw (.macStart (some p)) true :: s.trace }

theorem linkUp_ok {p : Link} {hr : List HwAnswer} (hd : s.env.during = []) (h : s.env.hw = .ok :: hr) :
    linkUp p s = linkedState p s hr := by
  have hcall : hwCall (.macStart (some p)) (s.setLink p) =
      (true, called (.macStart (some p)) .ok { s.env with hw := hr } (s.setLink p)) := hwCall_ok (s := s.setLink p) h
  rw [linkUp, hcall, called_other (by simp)]
  simp only [writeIntrMask, regWrite_imr, State.setLink, State.setFlags, State.setIntrMask]
  rw [macPoint_of_during_nil (by exact hd)]
  simp only [signalResumable, wdtArm, State.setFlags, State.setResult, State.setEnv, State.emit, State.setWdt]
  rfl

/-- The gate closed, the queue flushed and the watchdog cancelled: steps (a) and (b) of `LINK.DOWN`. -/
def stoppedState (s : State) : State :=
  { s with
    flags := { s.flags with linkUp := false, wdtArmed := false }, env := { s.env with outbound := [] }
    trace := (s.env.outbound.map (Act.release · false)).reverse ++ s.trace }

theorem linkDownStop_eq (hd : s.env.during = []) : linkDownStop s = stoppedState s := by
  have hpoint : macPoint (s.setFlags { s.flags with linkUp := false }) = s.setFlags { s.flags with linkUp := false } :=
    macPoint_of_during_nil hd
  rw [linkDownStop, hpoint, flushOutbound_eq (s := s.setFlags { s.flags with linkUp := false }) hd]
  rfl

/-- What `LINK.DOWN` does up to the calls that start the MAC again, in order. -/
def clearActs (s : State) : List Act :=
  s.env.outbound.map (.release · false) ++ [.hw .macReset true] ++ (inFlight s.tx.mbuf).map (.release · false) ++
    [.regWrite s.cfg.regmap.imr.offset s.cfg.regmap.imr.width (imrDown s.cfg)]

/-- The state then. -/
def clearedState (s : State) (hr : List HwAnswer) : State :=
  { s with
    tx := emptyTx s.cfg s.tx, rx := { s.rx with next := 0#16, free := 0#16 }
    flags := { s.flags with linkUp := false, wdtArmed := false }, intrMask := imrDown s.cfg
    mac := { s.mac with started := false, startedWith := none, regs := { DeviceRegs.zero with imr := imrDown s.cfg } }
    mem := zeroRange (zeroRange s.mem s.tx.ringPhys (txBytes s.cfg)) s.rx.rrdPhys (rrdBytes s.cfg)
    late := heldAfterClear (rrdSlots s) (reachAll s), posted := [], env := { s.env with outbound := [], hw := hr }
    trace := (clearActs s).reverse ++ s.trace }

theorem linkDownClear_eq (hr : List HwAnswer) (hd : s.env.during = []) :
    linkDownClear (called .macReset .ok { (stoppedState s).env with hw := hr } (stoppedState s)) = clearedState s hr := by
  rw [called_macReset, linkDownClear, macPoint_of_during_nil (by exact hd)]
  simp only [writeIntrMask, regWrite_imr, rxResetRings, clearRxCursors, holdLate, txClear_eq]
  refine State.eq_of_fields (h18 := ?trace) rfl rfl rfl rfl rfl rfl rfl rfl rfl rfl rfl rfl rfl rfl rfl rfl rfl rfl rfl rfl rfl
  simp only [clearedState, clearActs, stoppedState, List.reverse_append, List.append_assoc]
  rfl

section
variable {u : State} {hr : List HwAnswer} (hd : s.env.during = []) (h : s.env.hw = .ok :: hr)
include hd h

theorem hwCall_linkDownStop : hwCall .macReset (linkDownStop s) =
    (true, called .macReset .ok { (stoppedState s).env with hw := hr } (stoppedState s)) := by
  rw [linkDownStop_eq hd]
  exact hwCall_ok (s := stoppedState s) h

/-- The MAC starts again. -/
theorem linkDown_restarts (hc : hwCalls (linkDownCalls (clearedState s hr)) (clearedState s hr) = (true, u)) :
    linkDown s = ((offerAll u).setLink Link.down).setResult .ok := by
  rw [linkDown, hwCall_linkDownStop hd h]
  simp only [linkDownClear_eq hr hd, hc]

/-- It does not. -/
theorem linkDown_aborts (hc : hwCalls (linkDownCalls (clearedState s hr)) (clearedState s hr) = (false, u)) :
    linkDown s = abortAdmin u := by
  rw [linkDown, hwCall_linkDownStop hd h]
  simp only [linkDownClear_eq hr hd, hc]

end

/-- What `LINK.DOWN` does, in order. -/
def downActs (s : State) : List Act :=
  clearActs s ++ [.hw (.macConfigure (macConf s)) true, .hw (.macStart none) true,
    .regWrite s.cfg.regmap.rfdPidx.offset s.cfg.regmap.rfdPidx.width (BitVec.ofNat 32 (s.cfg.nRfd - 1))]

/-- The state `LINK.DOWN` leaves. -/
def downState (s : State) (hr : List HwAnswer) : State :=
  { clearedState s hr with
    link := Link.down
    mac := { started := true, startedWith := none, conf := macConf s, advertised := s.mac.advertised,
             regs := freshRegs s.cfg (imrDown s.cfg) }
    late := lateAfterReset s (heldAfterClear (rrdSlots s) (reachAll s)), posted := postedAfterReset s, result := .ok
    trace := (downActs s).reverse ++ s.trace }

theorem linkDown_ok {hr : List HwAnswer} (hd : s.env.during = []) (h : s.env.hw = .ok :: .ok :: .ok :: hr) :
    linkDown s = downState s hr := by
  let u := clearedState s (.ok :: .ok :: hr)
  have hcalls : hwCalls (linkDownCalls u) u = (true, calledAll (linkDownCalls u) u hr) :=
    hwCalls_all_ok (by simp [linkDownCalls]) rfl
  have hoffer := offerAll_eq (s := calledAll (linkDownCalls u) u hr) rfl rfl
  rw [linkDown_restarts hd h hcalls, hoffer]
  refine State.eq_of_fields (h18 := ?trace) rfl rfl rfl rfl rfl rfl rfl rfl rfl rfl rfl rfl rfl rfl rfl rfl rfl rfl rfl rfl rfl
  rw [downState, downActs, List.reverse_append, List.append_assoc]
  rfl

end Sys2Proof.Machine
end

section
/-! SUPPORT. What the states of `DEV.DISABLE`, `DEV.ENABLE` and `DEV.RESET` show (60_exceptions.md R259, R260, R264; O36,
O38). -/

namespace Sys2Proof.Machine

variable {s t : State}

/-! ### Disabled (R264) -/

theorem exec_devDisable (he : s.flags.enabled = true) (hd : s.env.during = []) :
    exec .devDisable s = .next (disabledState s) := by
  change Host.Outcome.next (devDisable s) = _
  rw [devDisable, if_pos he, disableSteps_eq hd]

theorem hwAnswer_of_cons {e : Env} {a : HwAnswer} {rest : List HwAnswer} (h : e.hw = a :: rest) :
    hwAnswer e = a ∧ envAfterHw e = { e with hw := rest } := by
  simp [hwAnswer, envAfterHw, h]

theorem noRings_disabledState (s : State) : NoRings (disabledState s) := ⟨rfl, rfl, rfl, rfl, rfl, rfl, rfl, rfl, rfl, rfl⟩

theorem imr_haltedMac (a : HwAnswer) (m : Mac) : (haltedMac a m).regs.imr = 0#32 := by cases a <;> rfl

theorem newActs_disabledState (s : State) : newActs (disabledState s) s = disableActs s := newActs_of_trace rfl

@[simp] theorem filter_isRelease_releases (l : List Frame) :
    (l.map (Act.release · false)).filter isRelease = l.map (.release · false) := List.filter_eq_self.2 (by simp [isRelease])

@[simp] theorem filter_isBufFree_releases (l : List Frame) : (l.map (Act.release · false)).filter isBufFree = [] :=
  List.filter_eq_nil_iff.2 (by simp [isBufFree])

@[simp] theorem filter_isRelease_bufFrees (l : List Buf) : (l.map Act.bufFree).filter isRelease = [] :=
  List.filter_eq_nil_iff.2 (by simp [isRelease])

@[simp] theorem filter_isBufFree_bufFrees (l : List Buf) : (l.map Act.bufFree).filter isBufFree = l.map .bufFree :=
  List.filter_eq_self.2 (by simp [isBufFree])

/-- The frames a disable releases: what is queued, then what is in flight. -/
theorem filter_isRelease_disableActs (s : State) :
    (disableActs s).filter isRelease = (s.env.outbound ++ inFlight s.tx.mbuf).map (.release · false) := by
  have hreset : (resetActs (hwAnswer s.env)).filter isRelease = [] := by cases hwAnswer s.env <;> rfl
  simp [disableActs, teardownActs, hreset, isRelease]

theorem filter_isBufFree_teardownActs (s : State) :
    (teardownActs s).filter isBufFree = (tracked s.rx.mbuf ++ s.pool.spare).map .bufFree := by
  simp [teardownActs, isBufFree]

/-- And the buffers: the posted ones, then the spares. -/
theorem filter_isBufFree_disableActs (s : State) :
    (disableActs s).filter isBufFree = (tracked s.rx.mbuf ++ s.pool.spare).map .bufFree := by
  have hreset : (resetActs (hwAnswer s.env)).filter isBufFree = [] := by cases hwAnswer s.env <;> rfl
  simp [disableActs, filter_isBufFree_teardownActs, hreset, isBufFree]

/-- A teardown stores to its rings alone. -/
theorem readByte_teardown_outside (hm : Memory.wf s.mem = true) {a : Addr}
    (ha : ∀ r ∈ ringRegions s, inRange r.base r.size a = false) : readByte (zeroedRings (txClear s)) a = readByte s.mem a := by
  rw [readByte_zeroedRings_outside (txClear_wf hm) (by rw [ringRegions_txClear]; exact ha), txClear_mem]
  exact readByte_zeroRange_outside hm (ha _ (.head _))

theorem sameLongLived_disabledState (s : State) : SameLongLived (disabledState s) s := ⟨rfl, rfl, rfl, rfl, rfl, rfl, rfl⟩

/-! ### Enabled (R260) -/

/-- The rings that a set-up of these answers builds: the buffers divide into those for the slots and those for the pool. -/
theorem ringSetup_answered {t r q : Addr} {dr : List (Option Addr)} {bufs : List BufAnswer} {ar : List (Option BufAnswer)}
    (hu : s.flags.ringsUp = false) (h : SetupAnswers s s.env.live t r q dr bufs ar) :
    ∃ posted spares, bufs = posted ++ spares ∧ posted.length = s.cfg.nRfd ∧
      ringSetup s = builtRings s t r q dr posted spares ar := by
  obtain ⟨hdma, hlen, halloc, hrings, hbufs⟩ := h
  refine ⟨bufs.take s.cfg.nRfd, bufs.drop s.cfg.nRfd, (List.take_append_drop _ _).symm, by simpa using hlen, ?_⟩
  have hposted : (bufs.take s.cfg.nRfd).length = s.cfg.nRfd := by simpa using hlen
  rw [← List.take_append_drop s.cfg.nRfd bufs] at hbufs halloc
  simp only [List.length_append, List.map_append, List.append_assoc, hposted, Nat.add_right_inj,
    Nat.add_lt_add_iff_left] at halloc
  obtain ⟨hn, ha⟩ | ⟨hn, ha⟩ := halloc
  · exact ringSetup_built hu hrings hdma hbufs hposted ha (.inl ⟨hn, rfl⟩)
  · exact ringSetup_built hu hrings hdma hbufs hposted ha (.inr ⟨hn, rfl⟩)

theorem devEnable_of_ok (he : s.flags.enabled = false) (hu : s.flags.ringsUp = false) (h : ringSetup s = t)
    (hok : t.result = .ok) : devEnable s = enableMac t := by
  rw [devEnable, if_neg (by simp [he, hu]), h]
  exact if_pos hok

/-- What the freshness of the rings speaks of. -/
theorem FreshRings.congr {u v : State} {live : List Region} {t r q : Addr} {bufs : List BufAnswer}
    (h : FreshRings v s live t r q bufs) (hcfg : u.cfg = v.cfg) (htx : u.tx = v.tx) (hrx : u.rx = v.rx) (hpool : u.pool = v.pool)
    (hmem : u.mem = v.mem) (hlive : u.env.live = v.env.live) : FreshRings u s live t r q bufs := by
  have hslot (i : Half) : rfdSlot u i = rfdSlot v i := by simp only [rfdSlot, hcfg, hrx]
  simp only [FreshRings, htx, hrx, hpool, hmem, hlive, hslot]
  exact h

/-- The rings and the pool of `DEV.ENABLE` are those of its set-up. -/
theorem enabledState_fresh {t r q : Addr} (dr : List (Option Addr)) {posted spares : List BufAnswer}
    (ar : List (Option BufAnswer)) (hr : List HwAnswer) (hv : s.cfg.valid = true) (hm : Memory.wf s.mem = true)
    (hrings : freshRegions s.cfg.ringAlign (ringsAt s.cfg t r q) s.env.live = true)
    (hbufs : RxAnswers s ((ringsAt s.cfg t r q).reverse ++ s.env.live) (posted ++ spares)) (hlen : posted.length = s.cfg.nRfd) :
    FreshRings (enabledState (builtRings s t r q dr posted spares ar) hr) s s.env.live t r q (posted ++ spares) :=
  (builtRings_fresh dr ar hv hm hrings hbufs hlen).congr rfl rfl rfl rfl rfl rfl

end Sys2Proof.Machine

open Sys2Proof Sys2Proof.Machine

/-- Settles O38: the state a disable leaves, and the acts it is made of. -/
theorem disableReleasesEverything : Obligations.DisableReleasesEverything := by
  intro s h hr
  refine ⟨fun he => congrArg Host.Outcome.next (if_neg (by simp [he])), fun he hd hhw hm => ?_⟩
  obtain ⟨hans, henv⟩ := hwAnswer_of_cons hhw
  refine ⟨disabledState s, exec_devDisable he hd, rfl, rfl, noRings_disabledState s, rfl, rfl, rfl, rfl, imr_haltedMac _ _, rfl,
    rfl, rfl, rfl, fun hok => ?_, ?_, ?_, ?_, ?_, fun a ha => readByte_teardown_outside hm ha, sameLongLived_disabledState s⟩
  · rw [disabledState, hans, hok]
    rfl
  · rw [disabledState, henv]
  · rw [newActs_disabledState, disableActs]
    rfl
  · rw [newActs_disabledState, filter_isRelease_disableActs]
  · rw [newActs_disabledState, filter_isBufFree_disableActs]

/-- Settles O36: the set-up builds the rings, and the four calls and the doorbell leave them as they are. -/
theorem enableEndsWithTheLinkDown : Obligations.EnableEndsWithTheLinkDown := by
  intro s t r q dr bufs ar hr he hu hv hm hans hhw
  obtain ⟨posted, spares, rfl, hlen, hbuilt⟩ := ringSetup_answered hu hans
  obtain ⟨-, -, -, hrings, hbufs⟩ := hans
  let v := builtRings s t r q dr posted spares ar
  have henable : devEnable s = enabledState v hr := by
    rw [devEnable_of_ok (t := v) he hu hbuilt rfl]
    exact enableMac_ok hhw
  refine ⟨enabledState v hr, congrArg Host.Outcome.next henable, rfl, rfl,
    enabledState_fresh dr ar hr hv hm hrings hbufs hlen, fun a ha => readByte_setupMem_other hv hm hlen.le ha, rfl, rfl, rfl,
    rfl, rfl, rfl, rfl, rfl, rfl, rfl, rfl, rfl, rfl, rfl⟩

end

section
/-! SUPPORT. `DEV.RESET` with good answers, and a `DEV.ENABLE` that times out (60_exceptions.md R244, R259, R260; O37, O39). -/

namespace Sys2Proof.Machine

variable {s t : State}

/-! ### A hardware call that times out (60_exceptions.md R244) -/

/-- One of several calls times out, none of them a reset: the MAC apart, only the answers are used up and the calls shown. -/
theorem hwCalls_some_timeout {l : List HwCall} {k : Nat} {d : DeviceRegs} {hr : List HwAnswer} (hl : .macReset ∉ l)
    (hk : k < l.length) (h : s.env.hw = List.replicate k .ok ++ .timeout d :: hr) :
    ∃ m acts, acts.filter isBufFree = [] ∧
      hwCalls l s = (false, { s with mac := m, env := { s.env with hw := hr }, trace := acts ++ s.trace }) := by
  induction l generalizing s k with
  | nil => simp at hk
  | cons c l ih =>
    obtain ⟨hc, hl⟩ := not_or.1 (mt List.mem_cons.2 hl)
    cases k with
    | zero =>
      rw [hwCalls_timeout l h, called_other (Ne.symm hc)]
      exact ⟨_, [_], rfl, rfl⟩
    | succ k =>
      obtain ⟨m, acts, hacts, hcalls⟩ := ih (s := called c .ok { s.env with hw := List.replicate k .ok ++ .timeout d :: hr } s)
        (k := k) hl (by simpa using hk) rfl
      refine ⟨m, acts ++ [.hw c true], by simp [hacts, isBufFree], ?_⟩
      rw [hwCalls_ok (rest := List.replicate k .ok ++ .timeout d :: hr) l h, hcalls, called_other (Ne.symm hc)]
      simp [HwAnswer.isOk]

/-- The calls of `DEV.ENABLE`, one of which times out. -/
theorem hwCalls_enable_timeout {k : Nat} {d : DeviceRegs} {hr : List HwAnswer} (hk : k < 4)
    (h : s.env.hw = List.replicate k .ok ++ .timeout d :: hr) :
    ∃ m acts, acts.filter isBufFree = [] ∧ hwCalls (enableCalls s) s = (false, { s with
      mac := m, late := (reachAll s).late, posted := [], env := { s.env with hw := hr }, trace := acts ++ s.trace }) := by
  rw [enableCalls]
  cases k with
  | zero =>
    rw [hwCalls_timeout _ h, called_macReset]
    exact ⟨_, [_], rfl, rfl⟩
  | succ k =>
    let u := called .macReset .ok { s.env with hw := List.replicate k .ok ++ .timeout d :: hr } s
    obtain ⟨m, acts, hacts, hcalls⟩ := hwCalls_some_timeout (s := u) (k := k) (hr := hr)
      (l := [.macConfigure (macConf s), .setAdvertise s.medium, .macStart none]) (by simp) (Nat.lt_of_succ_lt_succ hk) rfl
    refine ⟨m, acts ++ [.hw .macReset true], by simp [hacts, isBufFree], ?_⟩
    rw [hwCalls_ok (rest := List.replicate k .ok ++ .timeout d :: hr) _ h, hcalls]
    simp only [u, called_macReset, HwAnswer.isOk, List.append_assoc]
    rfl

/-- The state an aborted enable leaves. -/
theorem enableAbort_eq (s : State) : enableAbort s = { s with
    tx := { emptyTx s.cfg s.tx with mbuf := [] }, rx := { s.rx with next := 0#16, free := 0#16, mbuf := [] }
    pool := { spare := [], refillPending := false }, flags := { s.flags with ringsUp := false }
    mac := { s.mac with started := false, startedWith := none }
    mem := zeroedRings (txClear s), late := heldAfterClear (rrdSlots s ++ rfdSlots s) s
    env := { s.env with live := s.env.live.diff (freedRegions s) }, result := .fail
    trace := (teardownActs s).reverse ++ .raised .cfgTimeout :: s.trace } := by
  rw [enableAbort, ringTeardown_eq]
  refine State.eq_of_fields (h12 := ?mem) rfl rfl rfl rfl rfl rfl rfl rfl rfl rfl rfl rfl rfl rfl rfl rfl rfl rfl rfl rfl rfl
  rw [State.setResult_mem, zeroedRings_txClear, zeroedRings_txClear]
  rfl

/-- It frees every buffer the core holds. -/
theorem countActs_enableAbort (s : State) :
    countActs isBufFree (enableAbort s) = countActs isBufFree s + (tracked s.rx.mbuf ++ s.pool.spare).length := by
  rw [enableAbort_eq, countActs, List.filter_append, List.filter_reverse, filter_isBufFree_teardownActs, List.length_append,
    List.length_reverse, List.length_map, Nat.add_comm]
  rfl

/-- Stores that are not held back are none that are late. -/
theorem heldAfterClear_nil (slots : List Region) (hl : s.late = []) (hb : s.env.slowBus = false) :
    heldAfterClear slots s = [] := by
  simp [heldAfterClear, held, hl, hb]

theorem held_nil (slots : List Region) (hl : s.late = []) (hb : s.env.slowBus = false) : held slots s = [] := by
  simp [held, hl, hb]

/-- Everything given for the rings goes back. -/
theorem live_diff_freedRegions {t r q : Addr} (dr : List (Option Addr)) {posted spares : List BufAnswer}
    (ar : List (Option BufAnswer)) {live : List Region} :
    ((setupRegions s t r q (posted ++ spares)).reverse ++ live).diff (freedRegions (builtRings s t r q dr posted spares ar)) =
      live := by
  have hheld : heldRegions (builtRings s t r q dr posted spares ar) = bufRegions s (posted ++ spares) := by
    simp [heldRegions, builtRings, bufRegions]
  have hperm : (freedRegions (builtRings s t r q dr posted spares ar)).Perm (setupRegions s t r q (posted ++ spares)) := by
    rw [freedRegions, hheld]
    exact List.perm_append_comm
  rw [List.Perm.diff_left _ hperm, reverse_append_diff]

theorem fillBufs_wf (size : Nat) (bufs : List BufAnswer) {m : Memory} (hm : Memory.wf m = true) :
    Memory.wf (fillBufs size bufs m) = true := by
  induction bufs generalizing m with
  | nil => exact hm
  | cons b l ih => exact ih (fillBuf_wf size b hm)

theorem setupMem_wf {t r q : Addr} {posted spares : List BufAnswer} (hm : Memory.wf s.mem = true) :
    Memory.wf (setupMem s t r q posted spares) = true :=
  fillBufs_wf _ _ (fillAndPost_wf _ _ _ _ (zeroedRings_withRings_wf hm))

/-- Fresh rings show nothing of what stood before a disable. -/
theorem FreshRings.of_disabled {u : State} {live : List Region} {t r q : Addr} {bufs : List BufAnswer}
    (h : FreshRings u (disabledState s) live t r q bufs) : FreshRings u s live t r q bufs := h

end Sys2Proof.Machine

open Sys2Proof Sys2Proof.Machine

/-- Settles O37: what the calls leave of the rings that were set up goes back, whichever of them times out. -/
theorem enableFailureHoldsNothing : Obligations.EnableFailureHoldsNothing := by
  intro s t r q dr bufs ar k d hr
  refine ⟨fun he => congrArg Host.Outcome.next (if_pos (by simp [he])), fun he hu hans hk hhw => ?_⟩
  obtain ⟨posted, spares, rfl, hlen, hbuilt⟩ := ringSetup_answered hu hans
  let v := builtRings s t r q dr posted spares ar
  obtain ⟨m, acts, hacts, hcalls⟩ := hwCalls_enable_timeout (s := v) (hr := hr) hk hhw
  let x : State := { v with
    mac := m, late := (reachAll v).late, posted := [], env := { v.env with hw := hr }, trace := acts ++ v.trace }
  have henable : devEnable s = enableAbort x := by rw [devEnable_of_ok (t := v) he hu hbuilt rfl, enableMac, hcalls]
  have hnew : newActs (enableAbort x) s = acts.reverse ++ .raised .cfgTimeout :: teardownActs x :=
    newActs_of_trace (by rw [enableAbort_eq]; simp [x, v, builtRings])
  have hwf : Memory.wf s.mem = true → Memory.wf x.mem = true := setupMem_wf
  have hfree : countActs isBufFree (enableAbort x) = countActs isBufFree s + (posted ++ spares).length := by
    have hcount : countActs isBufFree x = countActs isBufFree s := by simp [countActs, x, v, builtRings, hacts]
    have hheld : (tracked x.rx.mbuf ++ x.pool.spare).length = (posted ++ spares).length := by simp [x, v, builtRings]
    rw [countActs_enableAbort, hcount, hheld]
  refine ⟨enableAbort x, congrArg Host.Outcome.next henable, ?_⟩
  rw [hnew]
  rw [enableAbort_eq] at hfree ⊢
  refine ⟨rfl, ?_, ⟨rfl, rfl, rfl, rfl, rfl, rfl, rfl, rfl, rfl, rfl⟩, rfl, by simp, hfree, fun hl hb => ?_, rfl,
    live_diff_freedRegions dr ar, fun hv hm a ha => ?_, rfl, rfl, rfl, rfl, rfl, rfl, rfl, rfl, rfl, rfl, rfl⟩
  · change ({ s.flags with ringsUp := false } : Flags) = s.flags
    rw [← hu]
  · refine heldAfterClear_nil _ ?_ hb
    change lateAfter _ (held _ s) = []
    rw [held_nil _ hl hb, lateAfter_nil]
  · have hrings : ∀ p ∈ ringRegions x, inRange p.base p.size a = false := fun p hp => ha p (List.mem_append_left _ hp)
    exact (readByte_teardown_outside (hwf hm) hrings).trans (readByte_setupMem_other hv hm hlen.le ha)

/-- Settles O39: the disable and the enable one after the other, the second over what the first leaves. -/
theorem resetRebuildsTheInterface : Obligations.ResetRebuildsTheInterface := by
  intro s h t r q dr bufs ar hr he hd hv hm hans hhw
  let w := disabledState s
  obtain ⟨-, henv⟩ := hwAnswer_of_cons hhw
  have hdw : w.env.during = [] := hd
  have hansw : SetupAnswers w w.env.live t r q dr bufs ar := hans
  have hhww : w.env.hw = .ok :: .ok :: .ok :: .ok :: hr := by
    change (envAfterHw s.env).hw = _
    rw [henv]
  have hwf : Memory.wf w.mem = true := zeroRange_wf _ _ (zeroRange_wf _ _ (zeroRange_wf _ _ (txClear_wf hm)))
  obtain ⟨posted, spares, rfl, hlen, hbuilt⟩ := ringSetup_answered (s := w) rfl hansw
  obtain ⟨-, -, -, hrings, hbufs⟩ := hansw
  let v := builtRings w t r q dr posted spares ar
  have hrestart : devRestart s = enabledState v hr := by
    have hdisable : devDisable s = w := by rw [devDisable, if_pos he, disableSteps_eq hd]
    rw [devRestart, hdisable, macPoint_of_during_nil hdw, devEnable_of_ok (t := v) rfl rfl hbuilt rfl]
    exact enableMac_ok hhww
  have hreset : devReset s = (enabledState v hr).setFlags { (enabledState v hr).flags with pollMode := s.flags.pollMode } := by
    simp only [devReset, hrestart]
    exact if_pos rfl
  have hfresh : FreshRings (enabledState v hr) w w.env.live t r q (posted ++ spares) :=
    enabledState_fresh (s := w) dr ar hr hv hwf hrings hbufs hlen
  have hlate : (reachAll v).late = held (ringSlots w.cfg t r q) w := lateAfter_zero _
  have hnew : newActs ((enabledState v hr).setFlags { (enabledState v hr).flags with pollMode := s.flags.pollMode }) s =
      disableActs s ++ enableActs v :=
    newActs_of_trace (by rw [List.reverse_append, List.append_assoc]; rfl)
  refine ⟨_, (exec_devReset he).trans (congrArg Host.Outcome.next hreset), ?_⟩
  rw [hnew]
  refine ⟨rfl, rfl, ?_, rfl, rfl, rfl, rfl, rfl, rfl, rfl, ⟨w, exec_devDisable he hd, ?_⟩, rfl, ?_, ?_, fun a ha => ?_, ?_⟩
  · exact (hfresh.congr rfl rfl rfl rfl rfl rfl).of_disabled
  · change lateAfterReset s (reachAll v).late = _
    rw [hlate]
    rfl
  · rw [List.filter_append, filter_isRelease_disableActs]
    exact List.append_nil _
  · rw [List.filter_append, filter_isBufFree_disableActs]
    exact List.append_nil _
  · obtain ⟨hold, hfresh⟩ := List.forall_mem_append.1 ha
    exact (readByte_setupMem_other (s := w) hv hwf hlen.le hfresh).trans (readByte_teardown_outside hm hold)
  · exact ⟨rfl, rfl, rfl, rfl, rfl, rfl, rfl⟩
end

section
/-! SUPPORT. The link machine with no other agent inside it (60_exceptions.md R257, R258; O40, O41, O42). -/

namespace Sys2Proof.Machine

variable {s t x : State}

theorem exec_linkUp (he : s.flags.enabled = true) (hl : s.flags.linkUp = false) (hp : s.linkArg.valid = true) :
    exec .linkUp s = .next (linkUp s.linkArg s) := by
  change execLinkUp s = _
  rw [execLinkUp, if_neg (by simp [he, hl]), if_pos hp]

theorem exec_linkDown (he : s.flags.enabled = true) : exec .linkDown s = .next (linkDown s) :=
  congrArg Host.Outcome.next (if_pos he)

theorem newActs_downState (s : State) (hr : List HwAnswer) : newActs (downState s hr) s = downActs s := newActs_of_trace rfl

theorem filter_isRelease_downActs (s : State) :
    (downActs s).filter isRelease = (s.env.outbound ++ inFlight s.tx.mbuf).map (.release · false) := by
  simp [downActs, clearActs, isRelease]

/-! ### An administrative sequence that a timeout aborts (60_exceptions.md R244) -/

/-- What an aborted operation has left of the state it began in. -/
structure AbortsFrom (s x : State) : Prop where
  enabled : x.flags.enabled = true
  during : x.env.during = []
  env : x.env = { s.env with outbound := x.env.outbound, hw := x.env.hw, draws := x.env.draws }
  freed : freedRegions x = freedRegions s
  kept : SameLongLived x s
  acts : ∃ l, x.trace = l ++ s.trace

/-- Disabled with nothing held, and the failure reported. -/
structure AbortedTo (t s : State) : Prop where
  result : t.result = .fail
  mode : mode t = .disabled
  rings : NoRings t
  posted : t.posted = []
  link : t.link = Link.down
  intrMask : t.intrMask = 0#32
  imr : t.mac.regs.imr = 0#32
  stopped : t.mac.started = false
  raised : .raised .cfgTimeout ∈ newActs t s
  env : t.env = { s.env with outbound := [], hw := t.env.hw, draws := t.env.draws, live := s.env.live.diff (freedRegions s) }
  kept : SameLongLived t s

theorem abortAdmin_eq (he : x.flags.enabled = true) (hd : x.env.during = []) :
    abortAdmin x = (disabledState (raise .cfgTimeout x)).setResult .fail := by
  have hdisable : devDisable (raise .cfgTimeout x) = disableSteps (raise .cfgTimeout x) := if_pos he
  rw [abortAdmin, hdisable, disableSteps_eq (s := raise .cfgTimeout x) hd]

/-- What one more hardware call and a teardown leave of an environment that differs in its answers and its queue alone. -/
theorem envAfterHw_of_env {e d : Env} (h : d = { e with outbound := d.outbound, hw := d.hw, draws := d.draws })
    (l : List Region) :
    { envAfterHw d with outbound := [], live := d.live.diff l } =
      { e with outbound := [], hw := (envAfterHw d).hw, draws := (envAfterHw d).draws, live := e.live.diff l } := by
  cases d
  cases e
  simp_all [envAfterHw]

theorem AbortsFrom.abortAdmin (h : AbortsFrom s x) : AbortedTo (abortAdmin x) s := by
  obtain ⟨he, hd, henv, hfreed, ⟨hcfg, hmedium, hdone, hwdt, hstats, hpuller, hforeign⟩, l, hl⟩ := h
  rw [abortAdmin_eq he hd]
  refine ⟨rfl, rfl, noRings_disabledState _, rfl, rfl, rfl, imr_haltedMac _ _, rfl, ?_, ?_,
    ⟨hcfg, hmedium, hdone, hwdt, hstats, hpuller, hforeign⟩⟩
  · have hnew : newActs ((disabledState (raise .cfgTimeout x)).setResult .fail) s =
        l.reverse ++ .raised .cfgTimeout :: disableActs (raise .cfgTimeout x) := by
      refine newActs_of_trace ?_
      change (disableActs (raise .cfgTimeout x)).reverse ++ .raised .cfgTimeout :: x.trace = _
      simp [hl]
    rw [hnew]
    simp
  · rw [← hfreed]
    exact envAfterHw_of_env henv (freedRegions x)

theorem late_abortAdmin (he : x.flags.enabled = true) (hd : x.env.during = []) :
    (abortAdmin x).late = heldAfterClear (rrdSlots x ++ rfdSlots x) (reachAll x) := by
  rw [abortAdmin_eq he hd, raise_cfgTimeout, State.setResult_late, disabledState]
  simp only [heldAfterClear, held, State.emit, reachAll_eq]
  rfl

theorem late_abortAdmin_nil (he : x.flags.enabled = true) (hd : x.env.during = []) (hl : x.late = [])
    (hb : x.env.slowBus = false) : (abortAdmin x).late = [] := by
  rw [late_abortAdmin he hd]
  refine heldAfterClear_nil _ ?_ hb
  change lateAfter _ x.late = []
  rw [hl, lateAfter_nil]

theorem linkUp_aborts {p : Link} {d : DeviceRegs} {hr : List HwAnswer} (h : s.env.hw = .timeout d :: hr) :
    linkUp p s = abortAdmin { s with
      link := p, env := { s.env with hw := hr }, trace := .hw (.macStart (some p)) false :: s.trace } := by
  have hcall : hwCall (.macStart (some p)) (s.setLink p) =
      (false, called (.macStart (some p)) (.timeout d) { s.env with hw := hr } (s.setLink p)) :=
    hwCall_timeout (s := s.setLink p) h
  rw [linkUp, hcall, called_other (by simp)]
  rfl

/-- `LINK.DOWN` aborted at any of its three calls. -/
theorem linkDown_timeout {k : Nat} {d : DeviceRegs} {hr : List HwAnswer} (hd : s.env.during = []) (he : s.flags.enabled = true)
    (hk : k < 3) (h : s.env.hw = List.replicate k .ok ++ .timeout d :: hr) :
    ∃ x, linkDown s = abortAdmin x ∧ AbortsFrom s x ∧ (s.late = [] → s.env.slowBus = false → x.late = []) := by
  have hreached : s.late = [] → (reachAll s).late = [] := fun hl => by
    change lateAfter _ s.late = []
    rw [hl, lateAfter_nil]
  cases k with
  | zero =>
    have hcall : hwCall .macReset (stoppedState s) =
        (false, called .macReset (.timeout d) { (stoppedState s).env with hw := hr } (stoppedState s)) :=
      hwCall_timeout (s := stoppedState s) h
    refine ⟨_, by rw [linkDown, linkDownStop_eq hd, hcall], ?_, fun hl _ => ?_⟩
    · rw [called_macReset]
      exact ⟨he, hd, rfl, rfl, ⟨rfl, rfl, rfl, rfl, rfl, rfl, rfl⟩, .hw .macReset false :: _, rfl⟩
    · rw [called_macReset]
      exact hreached hl
  | succ k =>
    let u := clearedState s (List.replicate k .ok ++ .timeout d :: hr)
    obtain ⟨m, acts, -, hcalls⟩ := hwCalls_some_timeout (s := u) (l := linkDownCalls u) (hr := hr) (by simp [linkDownCalls])
      (Nat.lt_of_succ_lt_succ hk) rfl
    refine ⟨_, linkDown_aborts hd h hcalls, ?_, fun hl hb => heldAfterClear_nil _ (hreached hl) hb⟩
    exact ⟨he, hd, rfl, rfl, ⟨rfl, rfl, rfl, rfl, rfl, rfl, rfl⟩, acts ++ (clearActs s).reverse, (List.append_assoc ..).symm⟩

end Sys2Proof.Machine

open Sys2Proof Sys2Proof.Machine

/-- Settles O40: the state the one call, the mask, the gate and the watchdog leave. -/
theorem linkUpOpensTheGate : Obligations.LinkUpOpensTheGate := by
  intro s hr hd he hl hp hhw
  rw [exec_linkUp he hl hp, linkUp_ok hd hhw]
  rfl

/-- Settles O41: the state the clears and the restart leave; the free ring is apart from both zeroed rings. -/
theorem linkDownClearsTheRings : Obligations.LinkDownClearsTheRings := by
  intro s hr hd he hhw hm
  have hwf := zeroRange_wf s.tx.ringPhys (txBytes s.cfg) hm
  refine ⟨downState s hr, ?_, rfl, ?_, fun hapart a ha => ?_, (zeroBytes_zeroRange _ _ hm).zeroRange hwf,
    zeroBytes_zeroRange _ _ hwf, fun a ha => ?_⟩
  · rw [exec_linkDown he, linkDown_ok hd hhw]
  · rw [newActs_downState, filter_isRelease_downActs]
  · simp only [ringRegions, List.pairwise_cons, List.mem_cons, List.not_mem_nil, or_false, forall_eq_or_imp, forall_eq] at hapart
    obtain ⟨⟨-, htx⟩, hrrd, -⟩ := hapart
    rw [apart_comm] at htx hrrd
    exact (readByte_zeroRange_outside hwf (apart_not_inRange hrrd ha)).trans
      (readByte_zeroRange_outside hm (apart_not_inRange htx ha))
  · exact (readByte_zeroRange_outside hwf (ha _ (.tail _ (.head _)))).trans (readByte_zeroRange_outside hm (ha _ (.head _)))

/-- Settles O42: whichever call times out, the abort disables the interface over what the operation has left. -/
theorem linkTimeoutDisables : Obligations.LinkTimeoutDisables := by
  intro s d k hr hd he
  refine ⟨fun hl hp hhw => ?_, fun hk hhw => ?_⟩
  · let x : State := { s with
      link := s.linkArg, env := { s.env with hw := hr }, trace := .hw (.macStart (some s.linkArg)) false :: s.trace }
    have hfrom : AbortsFrom s x := ⟨he, hd, rfl, rfl, ⟨rfl, rfl, rfl, rfl, rfl, rfl, rfl⟩, [_], rfl⟩
    obtain ⟨hres, hmode, hrings, hposted, hlink, hmask, himr, hstop, hraised, henv, hkept⟩ := hfrom.abortAdmin
    refine ⟨abortAdmin x, ?_, hres, hmode, hrings, late_abortAdmin (x := x) he hd, hposted, hlink, hmask, himr, hstop, hraised,
      henv, hkept⟩
    rw [exec_linkUp he hl hp, linkUp_aborts hhw]
  · obtain ⟨x, hdown, hfrom, hlate⟩ := linkDown_timeout hd he hk hhw
    obtain ⟨hres, hmode, hrings, hposted, hlink, hmask, himr, hstop, hraised, henv, hkept⟩ := hfrom.abortAdmin
    refine ⟨abortAdmin x, ?_, hres, hmode, hrings, fun hl hb => ?_, hposted, hlink, hmask, himr, hstop, hraised, henv, hkept⟩
    · rw [exec_linkDown he, hdown]
    · exact late_abortAdmin_nil hfrom.enabled hfrom.during (hlate hl hb) (by rw [hfrom.env]; exact hb)
end

section
/-! SUPPORT. `MEDIUM.SELECT` and link evaluation (60_exceptions.md R256, R261; O43, O49). -/

namespace Sys2Proof.Machine

variable {s t : State}

/-! ### The settled answers of the hardware calls -/

theorem hw_pullTurn (h : pullTurn s = .next t) : t.env.hw = s.env.hw := by
  obtain rfl | ⟨-, ⟨-, -, rfl⟩ | ⟨-, hs⟩⟩ := pullTurn_cases h
  · rfl
  · rfl
  · obtain ⟨-, rfl⟩ | ⟨-, rfl⟩ | ⟨_, -, ⟨-, rfl⟩ | ⟨-, ⟨-, rfl⟩ | ⟨f, rest, -, rfl⟩⟩⟩ | ⟨f, u, -, hu, rfl⟩ := pullStep_cases hs
    · rfl
    · rfl
    · rfl
    · rfl
    · rfl
    · obtain ⟨-, -, -, -, -, -, -, -, henv, -⟩ := enqueue_frame hu
      change u.env.hw = _
      rw [henv]

/-- No other agent uses them up. -/
theorem hw_midStep (m : MidStep) (s : State) : (midStep m s).env.hw = s.env.hw := by
  obtain he | ⟨a, he⟩ | he | ⟨f, he⟩ | ⟨a, l, he⟩ | ⟨r, he⟩ := midStep_cases m s
  · rw [he]
  · rw [he]
    simp
  · exact hw_pullTurn he
  · rw [he]
    rfl
  · rw [he]
    simp
  · rw [he, bufReturn]
    split <;> rfl

theorem hw_macPoint (s : State) : (macPoint s).env.hw = s.env.hw :=
  macPoint_keeps (P := fun t => t.env.hw = s.env.hw) (fun _ h => h) (fun m u h => (hw_midStep m u).trans h) rfl

theorem hw_flushOutbound (s : State) : (flushOutbound s).env.hw = s.env.hw :=
  flushLoop_keeps (P := fun t => t.env.hw = s.env.hw) (fun u h => (hw_macPoint u).trans h) (fun _ _ _ h _ => h) _ rfl

/-- `LINK.DOWN` with three good answers succeeds and uses up those, whatever steps inside it. -/
theorem linkDown_answers {hr : List HwAnswer} (h : s.env.hw = .ok :: .ok :: .ok :: hr) :
    (linkDown s).result = .ok ∧ (linkDown s).env.hw = hr := by
  have hstop : (linkDownStop s).env.hw = .ok :: .ok :: .ok :: hr := by
    rw [linkDownStop]
    exact (hw_flushOutbound _).trans ((hw_macPoint _).trans h)
  let x := called .macReset .ok { (linkDownStop s).env with hw := .ok :: .ok :: hr } (linkDownStop s)
  let u := linkDownClear x
  have hu : u.env.hw = .ok :: .ok :: hr := by
    have hclear : u.env = (macPoint x).env := by simp [u, linkDownClear]
    rw [hclear, hw_macPoint]
    rfl
  have hreset : hwCall .macReset (linkDownStop s) = (true, x) := hwCall_ok hstop
  have hcalls : hwCalls (linkDownCalls u) u = (true, calledAll (linkDownCalls u) u hr) :=
    hwCalls_all_ok (by simp [linkDownCalls]) hu
  have hdown : linkDown s = ((offerAll (calledAll (linkDownCalls u) u hr)).setLink Link.down).setResult .ok := by
    rw [linkDown, hreset]
    simp only [u] at hcalls ⊢
    simp only [hcalls]
  rw [hdown]
  exact ⟨rfl, by simp [calledAll]⟩

/-! ### MEDIUM.SELECT (60_exceptions.md R261) -/

theorem advertise_ok {m : BitVec 5} {hr : List HwAnswer} (h : s.env.hw = .ok :: hr) : advertise m s = { s with
    mac := { s.mac with advertised := m }, env := { s.env with hw := hr }, result := .ok
    trace := .hw (.setAdvertise m) true :: s.trace } := by
  rw [advertise, hwCall_ok h]
  rfl

theorem advertise_timeout {m : BitVec 5} {d : DeviceRegs} {hr : List HwAnswer} (h : s.env.hw = .timeout d :: hr) :
    advertise m s = { s with
      env := { s.env with hw := hr }, result := .fail
      trace := .raised .cfgTimeout :: .hw (.setAdvertise m) false :: s.trace } := by
  rw [advertise, hwCall_timeout h]
  simp only [raise_cfgTimeout, hwTimeout, beforeCall, State.setEnv, State.setMac, State.emit, State.setResult]

theorem exec_mediumSelect (m : BitVec 5) (s : State) : exec (.mediumSelect m) s = .next (mediumSelect m s) := rfl

theorem mediumSelect_enabled {m : BitVec 5} (hm : mediumLegal m = true) (he : s.flags.enabled = true) :
    mediumSelect m s = reselect m (s.setMedium m) := by
  rw [mediumSelect, if_pos hm]
  exact if_pos he

theorem reselect_down {m : BitVec 5} (hl : s.flags.linkUp = false) : reselect m s = advertise m (s.setLink Link.down) :=
  if_neg (by simp [hl])

theorem reselect_up {m : BitVec 5} (hl : s.flags.linkUp = true) (hok : (linkDown s).result = .ok) :
    reselect m s = advertise m (linkDown s) := by
  rw [reselect, if_pos hl]
  exact if_pos hok

/-! ### Link evaluation (60_exceptions.md R256) -/

/-- The state behind the entry write of a dispatch. -/
def acknowledged (s : State) : State :=
  { s with
    mac := { s.mac with regs := { s.mac.regs with
      isr := isrWrite s.cfg.isr.dis s.mac.regs.isr (s.mac.regs.isr ||| s.cfg.isr.dis) } }
    trace := .regWrite s.cfg.regmap.isr.offset s.cfg.regmap.isr.width (s.mac.regs.isr ||| s.cfg.isr.dis) :: s.trace }

/-- And behind the read of the link. -/
def linkRead (s : State) (rest : List (Option Link)) : State :=
  { acknowledged s with env := { s.env with phy := rest } }

/-- The state behind the exit write. -/
def exitedState (s : State) : State :=
  { s with
    mac := { s.mac with regs := { s.mac.regs with isr := isrWrite s.cfg.isr.dis s.mac.regs.isr 0#32 } }
    result := .returned, trace := .regWrite s.cfg.regmap.isr.offset s.cfg.regmap.isr.width 0#32 :: s.trace }

/-- The link bit alone. -/
structure LinkBitAlone (s : State) : Prop where
  link : s.mac.regs.isr &&& s.cfg.isr.link ≠ 0#32
  fatal : s.mac.regs.isr &&& s.cfg.isr.fatal = 0#32
  alert : s.mac.regs.isr &&& s.cfg.isr.alert = 0#32
  tx : s.mac.regs.isr &&& s.cfg.isr.tx = 0#32
  rx : s.mac.regs.isr &&& s.cfg.isr.rx = 0#32

/-- A dispatch for the link is its evaluation between the entry write and the exit write. -/
theorem exec_irqDispatch_link {a : Option Link} {rest : List (Option Link)} (he : s.flags.enabled = true)
    (hd : s.env.during = []) (hb : LinkBitAlone s) (hphy : s.env.phy = a :: rest) (hx : linkEvalOn a (linkRead s rest) = .next t) :
    exec .irqDispatch s = .next (exitedState t) := by
  have hlog : logAlert s.mac.regs.isr (dispatchEntry s) = acknowledged s := by
    rw [logAlert_dispatchEntry hd, if_pos hb.alert]
    rfl
  have hread : hwReadLink (acknowledged s) = (a, linkRead s rest) := by
    simp only [hwReadLink, acknowledged, hphy]
    rfl
  have heval : serveLink s.mac.regs.isr (acknowledged s) = .next t := by
    rw [serveLink_evaluates (s := acknowledged s) hb.link hd, linkEval, hread]
    exact hx
  rw [exec_irqDispatch he, dispatch_serve hb.fatal]
  exact serve_eq (by rw [hlog]; exact serveEngines_skipped (.inr ⟨hb.tx, hb.rx⟩)) heval

theorem linkEvalOn_none (s : State) : linkEvalOn none s = .next (if s.flags.linkUp then linkDown s else s) := rfl

/-- What is known already changes nothing. -/
theorem linkEvalOn_same {p : Link} (hp : p.valid = true) (hl : s.flags.linkUp = true) (h : p = s.link) :
    linkEvalOn (some p) s = .next s := by
  subst h
  simp [linkEvalOn, hp, hl]

theorem linkEvalOn_up {p : Link} (hp : p.valid = true) (he : s.flags.enabled = true) (hl : s.flags.linkUp = false) :
    linkEvalOn (some p) s = .next (linkUp p s) := by
  simp [linkEvalOn, hp, hl, he]

/-- A renegotiated link is taken down and brought up. -/
theorem linkEvalOn_again {p : Link} (hp : p.valid = true) (hl : s.flags.linkUp = true) (hne : p ≠ s.link)
    (ht : macPoint (linkDown s) = t) (he : t.flags.enabled = true) (hd : t.flags.linkUp = false) :
    linkEvalOn (some p) s = .next (linkUp p t) := by
  simp [linkEvalOn, hp, hl, hne, ht, he, hd]

end Sys2Proof.Machine

open Sys2Proof Sys2Proof.Machine

/-- Settles O43: the codes, then the modes; with the link up the advertisement follows a `LINK.DOWN` that succeeds. -/
theorem mediumSelectRecordsAndAdvertises : Obligations.MediumSelectRecordsAndAdvertises := by
  intro s m d hr
  refine ⟨fun hm => ?_, fun hm => ⟨fun he => ?_, fun he hl hhw => ?_, fun he hl hhw => ?_, fun he hl hhw => ?_⟩⟩
  · rw [exec_mediumSelect, mediumSelect, if_neg (by simp [hm])]
    rfl
  · rw [exec_mediumSelect, mediumSelect, if_pos hm]
    exact congrArg Host.Outcome.next (if_neg (by simp [he]))
  · rw [exec_mediumSelect, mediumSelect_enabled hm he, reselect_down (s := s.setMedium m) hl,
      advertise_ok (s := (s.setMedium m).setLink Link.down) hhw]
    rfl
  · rw [exec_mediumSelect, mediumSelect_enabled hm he, reselect_down (s := s.setMedium m) hl,
      advertise_timeout (s := (s.setMedium m).setLink Link.down) hhw]
    rfl
  · obtain ⟨hok, hrest⟩ := linkDown_answers (s := s.setMedium m) hhw
    refine ⟨_, linkDown (s.setMedium m), exec_linkDown (s := s.setMedium m) he, hok, ?_, rfl⟩
    rw [exec_mediumSelect, mediumSelect_enabled hm he, reselect_up (s := s.setMedium m) hl hok, advertise_ok hrest]

/-- Settles O49: each answer of the PHY, and the state the link machine leaves for it. -/
theorem linkChangeIsEvaluated : Obligations.LinkChangeIsEvaluated := by
  intro s a pr hr he hd hlink hfatal halert htx hrx hphy
  have hb : LinkBitAlone s := ⟨hlink, hfatal, halert, htx, hrx⟩
  have hexit : isrWrite s.cfg.isr.dis (acknowledged s).mac.regs.isr 0#32 = 0#32 := isrWrite_acknowledged _ _
  have hclear : isrWrite s.cfg.isr.dis 0#32 0#32 = 0#32 := by simp [isrWrite]
  have hdispatch {t : State} := exec_irqDispatch_link (t := t) he hd hb hphy
  refine ⟨fun ha => ?_, fun p ha hp hl hhw => ?_, fun ha hl hhw => ?_, fun p ha hp hl hne hhw => ?_⟩
  · have hsame : linkEvalOn a (linkRead s pr) = .next (linkRead s pr) := by
      obtain ⟨rfl, hl⟩ | ⟨p, rfl, hp, hpl, hl⟩ := ha
      · exact congrArg Host.Outcome.next (if_neg (by rw [show (linkRead s pr).flags.linkUp = false from hl]; simp))
      · exact linkEvalOn_same hp hl hpl
    refine ⟨_, hdispatch hsame, ?_⟩
    refine State.eq_of_fields (h11 := ?mac) rfl rfl rfl rfl rfl rfl rfl rfl rfl rfl rfl rfl rfl rfl rfl rfl rfl rfl rfl rfl rfl
    exact congrArg (fun v => ({ s.mac with regs := { s.mac.regs with isr := v } } : Mac)) hexit
  · subst ha
    have hup : linkEvalOn (some p) (linkRead s pr) = .next (linkedState p (linkRead s pr) hr) := by
      rw [linkEvalOn_up (s := linkRead s pr) hp he hl, linkUp_ok (s := linkRead s pr) hd hhw]
    exact ⟨_, hdispatch hup, rfl, rfl, rfl, rfl, hexit, rfl, rfl, rfl, rfl, rfl, rfl⟩
  · subst ha
    have hdown : linkEvalOn none (linkRead s pr) = .next (downState (linkRead s pr) hr) := by
      rw [linkEvalOn_none, if_pos (show (linkRead s pr).flags.linkUp = true from hl), linkDown_ok (s := linkRead s pr) hd hhw]
    refine ⟨_, hdispatch hdown, rfl, rfl, rfl, ?_, rfl, rfl, rfl, rfl, rfl⟩
    exact congrArg (fun v => ({ freshRegs s.cfg (imrDown s.cfg) with isr := v } : DeviceRegs)) hclear
  · subst ha
    let u := downState (linkRead s pr) (.ok :: hr)
    have hpoint : macPoint (linkDown (linkRead s pr)) = u := by
      rw [linkDown_ok (s := linkRead s pr) hd hhw]
      exact macPoint_of_during_nil (s := u) hd
    have hagain : linkEvalOn (some p) (linkRead s pr) = .next (linkedState p u hr) := by
      rw [linkEvalOn_again (s := linkRead s pr) hp hl hne hpoint he rfl, linkUp_ok (s := u) hd rfl]
    refine ⟨_, hdispatch hagain, rfl, rfl, rfl, ?_, rfl, rfl, rfl, rfl, rfl⟩
    exact congrArg (fun v => ({ freshRegs s.cfg (imrFull s.cfg) with isr := v } : DeviceRegs)) hclear
end

section
/-! SUPPORT. The constraints on the configuration (70_reset_and_hazards.md R286), and a machine that holds nothing (R281; O5, O58). -/

namespace Sys2Proof.Machine

/-! ### The configuration -/

/-- The check of `step` covers everything R286 lists. -/
theorem Cfg.constraintsHold_of_valid {c : Cfg} (h : c.valid = true) : ConstraintsHold c := by
  simp only [Cfg.valid, Cfg.ringsValid, Cfg.roomValid, Cfg.poolValid, Bool.and_eq_true, decide_eq_true_eq, isPow2_iff] at h
  obtain ⟨⟨⟨⟨⟨⟨⟨⟨⟨⟨⟨htx, hrrd⟩, hrfd⟩, -⟩, htxMax⟩, hrrdMax⟩, hrfdMax⟩, hrfdMin⟩, ⟨⟨hsegs, hmargin⟩, hreserve⟩, hroom⟩,
    ⟨⟨⟨⟨hsize, hlow⟩, hwdt⟩, halign⟩, hpow⟩, -⟩, -⟩, -⟩ := h
  refine ⟨htx, hrrd, hrfd, htxMax, hrrdMax, hrfdMax, fun hs => ?push, fun hs => ?pull, hmargin, hreserve, hsegs,
    fun hj => ?jumbo, ?two, hsize, hlow, hwdt, halign, hpow⟩
  case push => simpa [hs] using hroom
  case pull => simpa [hs] using hroom
  case jumbo => simpa [hj] using hrfdMin
  case two => split at hrfdMin <;> omega

/-! ### A machine that holds nothing -/

/-- A disabled machine without rings, buffers, regions given out or stores on their way meets every invariant: there is nothing for
them to speak of but the mode table and memory. -/
theorem RowDisabled.sound {s : State} (h : RowDisabled s) (hrings : s.flags.ringsUp = false) (hposted : s.rx.mbuf = [])
    (hspare : s.pool.spare = []) (hlive : s.env.live = []) (hlate : s.late = []) (hmem : MemorySound s) : Sound s := by
  have hstopped : s.mac.started = false := congrArg MacMode.started h.mac
  have henabled : s.flags.enabled = true → s.flags.ringsUp = true := by simp [h.enabled]
  have hheld : heldIds s = [] := by simp [heldIds, hposted, hspare, tracked]
  have hcore : coreRegions s = [] := by simp [coreRegions, heldRegions, ringsInUse, hposted, hspare, hrings, tracked]
  have hregions : RegionsSound s := by simp [RegionsSound, hlive, hcore]
  have hlateSound : LateSound s := by simp [LateSound, FencesPosted, hlate, hstopped]
  refine ⟨⟨henabled, by simp [hrings]⟩, h.modeSound, ⟨henabled, by simp [hrings], by simp [hspare], by simp [hspare]⟩,
    by simp [OwnedOnce, hheld], hmem, by simp [hrings], hregions, by simp [MacSound, hstopped], hlateSound⟩

end Sys2Proof.Machine

open Sys2Proof Sys2Proof.Machine

/-- Settles O5: a step tests the configuration first, and the test covers R286 (`Cfg.constraintsHold_of_valid`). -/
theorem unusableConfigurationIsRefused : Obligations.UnusableConfigurationIsRefused := by
  unfold Obligations.UnusableConfigurationIsRefused
  intro s h
  exact if_neg fun hv => h (Cfg.constraintsHold_of_valid hv)

/-- Settles O58: after power-on the machine is disabled and holds nothing (`RowDisabled.sound`). -/
theorem powerOnStateIsSound : Obligations.PowerOnStateIsSound := by
  have hrow : RowDisabled State.reset := ⟨rfl, rfl, rfl, rfl, rfl, rfl⟩
  exact ⟨hrow.sound rfl rfl rfl rfl rfl rfl, rfl, rfl, rfl, rfl, rfl, rfl, rfl, rfl, rfl, rfl, rfl, rfl, rfl, rfl, rfl, rfl, rfl⟩
end

section
/-! SUPPORT. O18: small machines for the interleavings a model must allow (70_reset_and_hazards.md R296; log entry 11), and that they
are sound. -/

namespace Sys2Proof.Machine

/-- The least transmit ring of the pull model whose reserve is a quarter of it, four receive slots, and no spare buffer. -/
def raceCfg : Cfg :=
  { Cfg.default with
    nTx := 16, nRrd := 2, nRfd := 4, maxSegs := 1, txSafetyMargin := 3, pullReserve := 4, txSched := .pull,
    jumboSupport := false, rxBufSize := 16, spareCap := 0, spareLowWater := 0 }

/-- `(1000, full, 0, 0)`. -/
def raceLink : Link := { speed := .s1000, duplex := .full, flowControl := 0#2, eee := false }

/-- The record `S` of an enabled interface with the link up and its rings empty. -/
def raceRecord : State :=
  { State.reset with
    cfg := raceCfg
    tx := emptyTx raceCfg { TxSide.powerOn with ringPhys := 0x1000#64 }
    rx := { RxSide.powerOn with
      rrdPhys := 0x2000#64, rfdPhys := 0x3000#64, mbuf := (List.range 4).map fun i => some (strayBuf i) }
    flags := { enabled := true, linkUp := true, pollMode := false, wdtArmed := true, ringsUp := true }
    intrMask := imrFull raceCfg
    mem := [(0x3001, 0x40#8), (0x3008, 0x40#8), (0x3009, 0x40#8), (0x3010, 0x80#8), (0x3011, 0x40#8), (0x3018, 0xC0#8),
      (0x3019, 0x40#8)]
    frameArg := byteFrame 0x5000#64
    linkArg := raceLink }

/-- The machine with that record. -/
def raceUp : State :=
  { raceRecord with
    mac := { started := true, startedWith := some raceLink, conf := macConf raceRecord, advertised := 0#5,
             regs := freshRegs raceCfg (imrFull raceCfg) }
    env := { Env.empty with live := coreRegions raceRecord, nextBuf := 4 } }

/-- The same that was never enabled, a free descriptor of earlier rings left in memory. -/
def raceDisabled : State :=
  { State.reset with
    cfg := raceCfg, mem := [(0x3001, 0x40#8)], frameArg := byteFrame 0x5000#64, linkArg := raceLink }

/-! ### Their invariants -/

theorem raceUp_txSound : TxSound raceUp := by unfold TxSound; decide

theorem raceUp_buffersFit : ∀ e ∈ raceUp.rx.mbuf, ∃ b, e = some b ∧ FitBuf raceUp.cfg b := by
  intro e he
  obtain ⟨i, hi, rfl⟩ := List.mem_map.1 he
  refine ⟨_, rfl, ?_⟩
  unfold FitBuf
  revert i
  decide

theorem raceUp_rxSound : RxSound raceUp :=
  ⟨fun _ => rfl, fun _ => ⟨by decide, by decide, by decide, raceUp_buffersFit⟩, by decide, fun _ hb => nomatch hb⟩

theorem raceUp_descriptorsPosted : DescriptorsPosted raceUp := by
  intro i hi b hb
  have hi : i < 4 := hi
  interval_cases i <;> cases hb <;> decide

theorem raceUp_trackingSound : TrackingSound raceUp := by
  refine ⟨fun _ => ⟨raceUp_descriptorsPosted, fun i _ f hf => ?_⟩, ⟨by decide, by decide, .refl _⟩, by unfold MacSound; decide,
    .nil, fun _ _ he => (nomatch he), fun _ he => (nomatch he), fun _ => ⟨fun _ _ h => (nomatch h), fun _ => rfl⟩⟩
  exact absurd (List.eq_of_mem_replicate (List.mem_of_getElem? (hf : (List.replicate 16 none)[i]? = _))) (by simp)

theorem raceUp_sound : Sound raceUp :=
  ⟨raceUp_txSound, RowUp.modeSound ⟨rfl, rfl, rfl, rfl, rfl, rfl⟩, raceUp_rxSound, by unfold OwnedOnce; decide,
    by unfold MemorySound; decide, raceUp_trackingSound⟩

/-- No invariant reads of the environment more than the regions given out and the identities used up. -/
theorem Sound.setEnv {s : State} {e : Env} (h : Sound s) (hlive : e.live = s.env.live) (hnext : e.nextBuf = s.env.nextBuf) :
    Sound (s.setEnv e) := by
  obtain ⟨htx, hmode, hrx, howned, hmem, hslots, ⟨hapart, hinside, hcore⟩, hmac, hlate⟩ := h
  refine ⟨htx, hmode, hrx, ⟨howned.1, ?_⟩, hmem, hslots, ⟨?_, ?_, ?_⟩, hmac, hlate⟩
  · exact hnext ▸ howned.2
  · exact hlive ▸ hapart
  · exact hlive ▸ hinside
  · exact hlive ▸ hcore

/-- A PULLER at the head of its loop has seen no room. -/
theorem Sound.setPuller_looping {s : State} (h : Sound s) : Sound (s.setPuller .looping) := by
  obtain ⟨⟨hup, hcounts⟩, hrest⟩ := h
  refine ⟨⟨hup, fun hr => ?_⟩, hrest⟩
  obtain ⟨hnext, hdirty, hslots, hfree, -⟩ := hcounts hr
  exact ⟨hnext, hdirty, hslots, hfree, nofun⟩

theorem raceDisabled_sound : Sound raceDisabled :=
  RowDisabled.sound ⟨rfl, rfl, rfl, rfl, rfl, rfl⟩ rfl rfl rfl rfl rfl (by unfold MemorySound; decide)

end Sys2Proof.Machine
end

section
/-! SUPPORT. O18: what the machines of the section above do, one interleaving after another. -/

namespace Sys2Proof.Machine

/-! ### Running an operation -/

/-- The operation answers a next state with the property, as a test. -/
def answersWith (i : Instr) (s : State) (p : State → Prop) [DecidablePred p] : Bool :=
  match exec i s with
  | .next t => decide (p t)
  | .fault _ => false
  | .refused _ => false

theorem exists_next_of_answersWith {i : Instr} {s : State} {p : State → Prop} [DecidablePred p]
    (h : answersWith i s p = true) : ∃ t, exec i s = .next t ∧ p t := by
  unfold answersWith at h
  split at h
  · exact ⟨_, by assumption, of_decide_eq_true h⟩
  · cases h
  · cases h

/-- Ring conservation after an operation (10_state.md R47). -/
theorem TxSound.exec {i : Instr} {s t : State} (hs : TxSound s) (hv : s.cfg.valid = true) (h : Machine.exec i s = .next t) :
    TxSound t := by
  have ha := conserved_ringInvariant.exec i ⟨hv, hs⟩
  rw [h] at ha
  exact ha.2

/-- A PULLER that has seen too little room flags the stall, whatever room there is by now (41_transmit.md R177). -/
theorem pullTurn_stalls {s : State} {free : Word} (hsched : s.cfg.txSched = .pull) (hp : s.puller = .saw free)
    (hb : belowReserve free s.cfg = true) :
    pullTurn s = .next ((s.setTx { s.tx with stalled := true }).setPuller .idle) := by
  simp [pullTurn, pulling, pullStep, hsched, hp, hb]

/-! ### The PULLER against a reclaim (R183, R296) -/

/-- The machine with `free` descriptors free behind slot `next`, of which the MAC has fetched those up to slot `cons`, and `n`
frames queued; a `TX.PULL` is in progress. -/
def racing (free : Word) (next cons : Half) (phase : PullPhase) (n : Nat) (during : List (List MidStep)) : State :=
  { raceUp with
    tx := { raceUp.tx with numFree := free, next := next }
    mac := { raceUp.mac with regs := { raceUp.mac.regs with txCons := cons } }
    puller := phase
    env := { raceUp.env with outbound := List.replicate n (byteFrame 0x5000#64), during := during } }

/-- The PULLER has seen three free descriptors, one below the reserve; all thirteen published are fetched. -/
def beforeStall : State := racing 3#32 13#16 13#16 (.saw 3#32) 1 []

theorem beforeStall_txSound : TxSound beforeStall := by unfold TxSound; decide

/-- The queue stays stalled behind a ring that a reclaim has emptied: the stall is flagged after the wake was tested for. -/
theorem beforeStall_loses_wakeup : ∃ u t, exec .txReclaim beforeStall = .next u ∧ pullTurn u = .next t ∧ TxSound t ∧
    t.puller = .idle ∧ t.tx.stalled = true ∧ (wakeThreshold t.cfg : Int) < t.tx.numFree.toInt ∧ t.env.outbound ≠ [] ∧
    t.env.resumable = false ∧ pullDue t = false := by
  have hv : beforeStall.cfg.valid = true := by decide
  have hs : TxSound beforeStall := beforeStall_txSound
  obtain ⟨u, hu, -, -, hfree, -, -, -, -, -, -, -, hquiet, -, -, -, -, -, -, hsame⟩ :=
    reclaimReleasesCompletedSlots beforeStall 13 rfl rfl hv (by decide) (by decide) (by decide) (by decide)
  obtain ⟨-, henv, -⟩ := hquiet fun h => absurd h.1 (by decide)
  have hcfg : u.cfg = beforeStall.cfg := hsame.1
  have hp : u.puller = .saw 3#32 := hsame.2.1
  have hturn := pullTurn_stalls (hcfg ▸ rfl) hp (hcfg ▸ (by decide : belowReserve 3#32 beforeStall.cfg = true))
  have ht := conserved_ringInvariant.pullTurn hturn ⟨hcfg ▸ hv, hs.exec hv hu⟩
  refine ⟨u, _, hu, hturn, ht.2, rfl, rfl, ?room, ?queued, ?unsignalled, ?notDue⟩
  case room =>
    change (wakeThreshold u.cfg : Int) < u.tx.numFree.toInt
    rw [hcfg, hfree]
    decide
  case queued =>
    change u.env.outbound ≠ []
    rw [henv]
    decide
  case unsignalled => exact congrArg Env.resumable henv
  case notDue =>
    change (u.cfg.txSched == .pull && (u.env.resumable || u.env.offered && !u.env.outbound.isEmpty)) = false
    rw [hcfg, henv]
    decide

/-- One below the reserve, two slots to reclaim and two frames queued; between the two adds the PULLER makes five accesses. -/
def betweenAdds : State := racing 3#32 13#16 2#16 .looping 2 [List.replicate 5 .pull]

theorem betweenAdds_sends_one : ∃ t, exec .txReclaim betweenAdds = .next t ∧ t.env.outbound.length = 1 ∧ t.puller = .idle ∧
    t.tx.dirty = inc betweenAdds.tx.dirty 2 betweenAdds.cfg.nTx ∧ t.tx.numFree = betweenAdds.tx.numFree + 1#32 :=
  exists_next_of_answersWith (by decide)

/-- A stalled queue of three frames, one slot to reclaim, which just passes the wake threshold; between the test of the wake and
its clearing the PULLER sends two frames and flags the stall, in eight accesses. -/
def amidWake : State :=
  let s := racing 4#32 12#16 1#16 .looping 3 [[], List.replicate 8 .pull]
  s.setTx { s.tx with stalled := true }

theorem amidWake_undoes_stall : ∃ t, exec .txReclaim amidWake = .next t ∧ t.puller = .idle ∧ t.tx.stalled = false ∧
    belowReserve t.tx.numFree t.cfg = true ∧ t.env.outbound ≠ [] :=
  exists_next_of_answersWith (by decide)

/-! ### The PULLER inside a LINK.DOWN (00_scope.md R17) -/

/-- Two frames queued; between the closing of the gate and the flush the PULLER makes six accesses, three for each frame. -/
def closingGate : State :=
  (raceUp.setEnv { raceUp.env with
    outbound := List.replicate 2 (byteFrame 0x5000#64), during := [List.replicate 6 .pull],
    hw := List.replicate 3 .ok }).setPuller .looping

theorem closingGate_drops_queue : ∃ t, exec .linkDown closingGate = .next t ∧ t.result = .ok ∧
    t.stats.txDrop = closingGate.stats.txDrop + 2 :=
  exists_next_of_answersWith (by decide)

/-! ### Stores that reach the MAC late (20_memory.md R88, R89, R91) -/

/-- Good answers for an enable or a reset and the `LINK.UP` and the receive that follow it, on a bus that holds stores back. The
first two buffers are answered in the order opposite to that of the addresses. -/
def slowBusEnv (e : Env) : Env :=
  { e with
    alloc := [0x4040#64, 0x4000#64, 0x4080#64, 0x40C0#64, 0x6000#64].map fun p =>
      some { phys := p, extra := 0, fill := [] }
    dma := [some 0x1000#64, some 0x2000#64, some 0x3000#64]
    hw := List.replicate 6 .ok
    slowBus := true }

/-- A frame of four bytes, the CRC trailer alone. -/
def lateBytes : List Byte := [1#8, 2#8, 3#8, 4#8]

/-- Untagged, without errors. -/
def lateMeta : RxMeta :=
  { pid := 0#8, err := 0#32, vlan := none, ignored0 := 0#32, ignored1 := 0#32, ignored2 := 0#32, ignored3 := 0#32 }

/-- The machine a `DEV.ENABLE` or a `DEV.RESET` starts from. In its memory the first free descriptor holds the address that the
second posted buffer will have. -/
def lateStart (i : Instr) : State :=
  if i = .devReset then raceUp.setEnv (slowBusEnv raceUp.env) else raceDisabled.setEnv (slowBusEnv raceDisabled.env)

theorem lateStart_sound (i : Instr) : Sound (lateStart i) := by
  unfold lateStart
  split
  · exact raceUp_sound.setEnv rfl rfl
  · exact raceDisabled_sound.setEnv rfl rfl

/-- A completion lost: after a `DEV.ENABLE` the free ring reaches the MAC, which completes a frame, and then the zeroing of the
completion descriptor does. -/
theorem lateStart_loses_completion :
    let s := devEnable (lateStart .devEnable)
    let s1 := macStep (.reach 1) (macStep (.arrive { base := s.rx.rfdPhys, size := rfdBytes s.cfg }) s)
    let s2 := macStep (.rx lateBytes lateMeta false) s1
    let s3 := macStep (.arrive (macRrd s1)) s2
    macRxReady lateBytes.length s1 = true ∧ s3.mac.regs.rrdProd = 1#16 ∧
    isUpdated s.cfg (load32 s3.mem (rrdFlag s 0)) = false ∧
    isUpdated s.cfg (load32 (macView s3) (rrdFlag s 0)) = false := by
  decide +kernel

end Sys2Proof.Machine
end

section
/-! SUPPORT. O18: free descriptors that reach the MAC late (20_memory.md R88, R89, R91), and the interleavings together. -/

namespace Sys2Proof.Machine

/-- The doorbell of an enable has reached the MAC, and of the core's stores the zeroing of the completion ring, at a teardown and at a
setup. -/
def bellArrived (s : State) : State :=
  let zeros := macStep (.arrive { base := s.rx.rrdPhys, size := rrdBytes s.cfg })
  macStep (.reach 1) (zeros (zeros s))

/-- At `y`, which posts the buffers that `s` does, the MAC receives a frame into the second of them, `b1`, and none of it into the
first, `b0`; the drain after it finds the frame. -/
abbrev FillsSecond (s : State) (b0 b1 : Buf) (y : State) : Prop :=
  let t := macStep (.rx lateBytes lateMeta false) y
  macRxReady lateBytes.length y = true ∧ y.rx.mbuf = s.rx.mbuf ∧ readBytes t.mem b1.phys lateBytes.length = lateBytes ∧
  readBytes t.mem b0.phys lateBytes.length = readBytes s.mem b0.phys lateBytes.length ∧
  answersWith (.rxDrain 16#24) t (fun z => z.result = .count 1) = true

/-- The buffer that the operation posts at a slot, answered at `p`. -/
def lateBuf (i : Instr) (slot : Nat) (p : Addr) : Buf :=
  { id := (lateStart i).env.nextBuf + slot, cap := 16, phys := p, len := 0, next := none }

/-- What the MAC does with the free descriptor it sees late: once the doorbell of the enable has reached it, and after a `TXQ` whose
doorbell has not, and a drain that found nothing. -/
abbrev FillsSecondTwice (s : State) (b0 b1 : Buf) : Prop :=
  answersWith .linkUp (bellArrived s) (fun v =>
    answersWith .txqPlain v (fun w =>
      w.result = .sent ∧ answersWith (.rxDrain 16#24) w (fun x =>
        x.result = .count 0 ∧ FillsSecond s b0 b1 (bellArrived s) ∧ FillsSecond s b0 b1 x) = true) = true) = true

theorem lateStart_fillsSecond {i : Instr} (hi : i = .devEnable ∨ i = .devReset) :
    ∃ s, exec i (lateStart i) = .next s ∧ s.result = .ok ∧ (i = .devReset → s.rx.rfdPhys = (lateStart i).rx.rfdPhys) ∧
      s.rx.mbuf[0]? = some (some (lateBuf i 0 0x4040#64)) ∧ s.rx.mbuf[1]? = some (some (lateBuf i 1 0x4000#64)) ∧
      FillsSecondTwice s (lateBuf i 0 0x4040#64) (lateBuf i 1 0x4000#64) := by
  obtain rfl | rfl := hi
  · exact exists_next_of_answersWith (by decide +kernel)
  · exact exists_next_of_answersWith (by decide +kernel)

end Sys2Proof.Machine

open Sys2Proof Sys2Proof.Machine

/-- Settles O18: one machine for each interleaving, run to where it shows. -/
theorem lostWakeUpIsAdmitted : Obligations.LostWakeUpIsAdmitted := by
  refine ⟨?lostWakeUp, ?betweenAdds, ?amidWake, ?closingGate, ?lostCompletion, fun i hi => ?lateFree⟩
  case lostWakeUp =>
    obtain ⟨u, t, h⟩ := beforeStall_loses_wakeup
    exact ⟨beforeStall, u, t, by decide, rfl, beforeStall_txSound, rfl, rfl, rfl, rfl, by decide, h⟩
  case betweenAdds =>
    have hs : TxSound betweenAdds := by unfold TxSound; decide
    obtain ⟨t, ht, h⟩ := betweenAdds_sends_one
    exact ⟨betweenAdds, t, by decide, rfl, hs, rfl, by decide, by decide, rfl, by decide, rfl, ht, hs.exec (by decide) ht, h⟩
  case amidWake =>
    have hs : TxSound amidWake := by unfold TxSound; decide
    obtain ⟨t, ht, h⟩ := amidWake_undoes_stall
    exact ⟨amidWake, t, 8, by decide, rfl, hs, rfl, rfl, by decide, rfl, ht, hs.exec (by decide) ht, h⟩
  case closingGate =>
    obtain ⟨t, ht⟩ := closingGate_drops_queue
    exact ⟨closingGate, t, by decide, rfl, (raceUp_sound.setEnv rfl rfl).setPuller_looping, rfl, rfl, rfl, rfl, ht⟩
  case lostCompletion =>
    exact ⟨lateStart .devEnable, _, lateBytes, lateMeta, by decide, rfl, lateStart_loses_completion⟩
  case lateFree =>
    obtain ⟨s, hs, hok, hphys, hb0, hb1, hlate⟩ := lateStart_fillsSecond hi
    obtain ⟨v, hv, hlate⟩ := exists_next_of_answersWith hlate
    obtain ⟨w, hw, hsent, hlate⟩ := exists_next_of_answersWith hlate
    obtain ⟨x, hx, hnone, hnow, hlater⟩ := exists_next_of_answersWith hlate
    have hne : (0x4040#64 : Addr) ≠ 0x4000#64 := by decide
    refine ⟨lateStart i, s, v, w, x, lateBytes, lateMeta, _, _, ?_, lateStart_sound i, hs, hok, hphys, hb0, hb1, hne,
      by decide, hv, hw, hsent, hx, hnone, fun y hy => ?_⟩
    · obtain rfl | rfl := hi <;> decide
    · obtain ⟨hready, hposted, hfilled, hleft, hdrained⟩ : FillsSecond s _ _ y := by
        obtain rfl | rfl := hy
        exacts [hnow, hlater]
      exact ⟨hready, hposted, hfilled, hleft, exists_next_of_answersWith hdrained⟩
end
